-- ==== Sys2Proof/Word.lean ====
section
/-! DEFINITION. The widths of PCXRQ: bytes, AW-bit cursors and lengths, the AW+1-bit encoder output cursor. -/

namespace Sys2Proof

/-- `AW`, the width of every cursor and length register (R4). DESIGN CHOICE (log 1): fixed at the spec's own 32. -/
abbrev AW : Nat := 32

/-- One byte: the unit of every byte space and of every 8-bit register (R42). -/
abbrev Byte := BitVec 8

/-- An `AW`-bit register: lengths and cursors (R10). -/
abbrev Word := BitVec AW

/-- `EOLEN` has one bit more than the other cursors (R18). -/
abbrev WideWord := BitVec (AW + 1)

end Sys2Proof
end

