-- ==== Sys2Proof/Config.lean ====
section
/-! DEFINITION. The constants of the block (R6) and the free values: what the spec leaves unspecified (R202, U3, U6). -/

namespace Sys2Proof.Config

/-- `RUN_MARK` (R6): the marker bits of a run token's control byte. -/
def runMark : Byte := 0xC0#8

/-- `RUN_MAX` (R6): the largest repeat count. -/
def runMax : Nat := 63

/-- `PAL_ENTRIES` (R6). -/
abbrev palEntries : Nat := 256

/-- `PAL_BYTES` (R6): the only blob length `PAL.LOAD` accepts. -/
def palBytes : Nat := 768

/-- `FIRST_CANDIDATE` (R6): the lowest index the search considers. -/
def firstCandidate : Nat := 1

/-- `TRANSPARENT_INDEX` (R6): the reserved "background/transparent" index. -/
def transparentIndex : Byte := 0#8

/-- `ALPHA_THRESHOLD` (R6): a pixel with alpha at or under it maps to index 0. -/
def alphaThreshold : Nat := 128

/-- FREE VALUE (R202, U3; log 6): the byte at an address of a byte space that nothing has written since the reset
numbered by the first argument. The second argument numbers the space (`PIN` 0 to `EOUT` 4). -/
opaque powerOnByte : Nat → Nat → Nat → Byte

/-- FREE VALUE (R202, R30; log 10): what the data registers `QR`, `QG`, `QB`, `QA`, `QIDX` (second argument 0 to 4)
hold after the `rst` numbered by the first argument. -/
opaque powerOnRegister : Nat → Nat → Byte

/-- FREE VALUE (R202, R30; log 10): channel `c` (0 red, 1 green, 2 blue) of palette entry `i` after the `rst` numbered
by the first argument; the arguments are the reset's number, `i` and `c`. -/
opaque powerOnPalette : Nat → Nat → Nat → Byte

/-- FREE VALUE (R11, U6; log 11): what the `k`-th `HostRead(CMD)` returns. -/
opaque cmdReadback : Nat → Byte

end Sys2Proof.Config
end

