-- ==== Sys2Proof/Syntax.lean ====
section
/-! DEFINITION. The instructions of PCXRQ at its two levels: stream tokens and host commands (opcode_table.json). -/

namespace Sys2Proof

/-- One constructor per mnemonic of the opcode table, and `mark` for the form of `RUN` and `RUN0` whose value byte is
missing (R72, R89; log 14). `LIT` has two table rows and `CMD.RESERVED` seven only because their code ranges are not one
match and mask pair: each is one instruction with its code as operand. -/
inductive Instr where
  /-- `LIT v` (R61, R85): the control byte is itself the output byte. -/
  | lit (v : Byte)
  /-- `RUN n, v` (R62, R86, R87): `n` copies of `v`, `n` in 1 to 63. -/
  | run (n : BitVec 6) (v : Byte)
  /-- `RUN0 v` (R63, R88): the reserved form of count 0. -/
  | run0 (v : Byte)
  /-- `MARK n` (R72, R89): a run marker that is the last input byte. -/
  | mark (n : BitVec 6)
  /-- `PAL.LOAD`, code 0x01 (R115 to R120). -/
  | palLoad
  /-- `RLE.DEC`, code 0x02 (R80 to R93). -/
  | rleDec
  /-- `RLE.ENC`, code 0x03 (R100 to R110). -/
  | rleEnc
  /-- `CQ.NEAR`, code 0x04 (R131). -/
  | cqNear
  /-- `CQ.PIX`, code 0x05 (R132). -/
  | cqPix
  /-- `CLRERR`, code 0x06 (R145). -/
  | clrErr
  /-- `CMD.RESERVED`, codes 0x00 and 0x07 to 0xFF (R69, R146). -/
  | cmdReserved (code : Byte)
deriving DecidableEq, Repr

end Sys2Proof
end

