-- ==== Sys2Proof/WellFormed.lean ====
section
/-! DEFINITION. Which instruction terms stand for an encoding of the spec. -/

namespace Sys2Proof

/-- The operand conditions of R72 (tokens) and R69 (reserved codes). -/
def Instr.wf : Instr → Bool
  | .lit v => decide (v.toNat < 0xC0)
  | .run n _ => decide (n ≠ 0#6)
  | .run0 _ => true
  | .mark _ => true
  | .palLoad => true
  | .rleDec => true
  | .rleEnc => true
  | .cqNear => true
  | .cqPix => true
  | .clrErr => true
  | .cmdReserved c => decide (c = 0#8 ∨ 7 ≤ c.toNat)

end Sys2Proof
end

