-- ==== Sys2Proof/Decode.lean ====
section
/-! DEFINITION. Decoding, total on any bytes, in the two instruction spaces (30_encoding.md); the encoder; the word
decoder of the opcode table. -/

namespace Sys2Proof

/-- The two spaces of opcode_table.json: control bytes of the stream, and values written to `CMD`. -/
inductive InstrSpace where
  | token
  | command
deriving DecidableEq, Repr

/-- Why a byte list decodes to no instruction. Every byte value is a valid control byte and a defined command code
(R66, R69), so only the empty list is turned away. -/
inductive DecodeError where
  | noBytes
deriving DecidableEq, Repr

/-- `c[7:6] = 0b11`, the run marker (R61, R62, R64). -/
def isRunMarker (c : Byte) : Bool := c.extractLsb' 6 2 == 3#2

/-- `n = c[5:0]` (R65): not biased, not scaled, not signed. -/
def countField (c : Byte) : BitVec 6 := c.extractLsb' 0 6

/-- `0xC0 | n` (R62, R102): the control byte of a run of `n`. -/
def runControl (n : BitVec 6) : Byte := Config.runMark ||| n.setWidth 8

/-- One token from the front of a stream, and the rest of the stream (R60 to R66). The length is told by bits 7:6 of the
control byte alone (R64); a run marker with nothing after it is `MARK` (R89). -/
def decodeToken : List Byte → Except DecodeError (Instr × List Byte)
  | [] => .error .noBytes
  | [c] => .ok (if isRunMarker c then .mark (countField c) else .lit c, [])
  | c :: v :: rest =>
    if isRunMarker c then .ok (if countField c = 0#6 then .run0 v else .run (countField c) v, rest)
    else .ok (.lit c, v :: rest)

/-- The command a value written to `CMD` stands for (R68, R69). -/
def decodeCommand (c : Byte) : Instr :=
  match c.toNat with
  | 1 => .palLoad
  | 2 => .rleDec
  | 3 => .rleEnc
  | 4 => .cqNear
  | 5 => .cqPix
  | 6 => .clrErr
  | _ => .cmdReserved c

/-- Decoding in either space; a command is one byte (R68). -/
def decode : InstrSpace → List Byte → Except DecodeError (Instr × List Byte)
  | .token, bytes => decodeToken bytes
  | .command, [] => .error .noBytes
  | .command, c :: rest => .ok (decodeCommand c, rest)

/-! ### The encoder -/

/-- The space an instruction belongs to. -/
def Instr.space : Instr → InstrSpace
  | .lit _ => .token
  | .run _ _ => .token
  | .run0 _ => .token
  | .mark _ => .token
  | .palLoad => .command
  | .rleDec => .command
  | .rleEnc => .command
  | .cqNear => .command
  | .cqPix => .command
  | .clrErr => .command
  | .cmdReserved _ => .command

/-- The bytes of an instruction, lowest address first (R42, R61, R62, R63, R68, R72). -/
def encode : Instr → List Byte
  | .lit v => [v]
  | .run n v => [runControl n, v]
  | .run0 v => [Config.runMark, v]
  | .mark n => [runControl n]
  | .palLoad => [0x01#8]
  | .rleDec => [0x02#8]
  | .rleEnc => [0x03#8]
  | .cqNear => [0x04#8]
  | .cqPix => [0x05#8]
  | .clrErr => [0x06#8]
  | .cmdReserved c => [c]

/-- How many bytes an instruction takes (R60, R64, R68). -/
def Instr.length : Instr → Nat
  | .lit _ => 1
  | .run _ _ => 2
  | .run0 _ => 2
  | .mark _ => 1
  | .palLoad => 1
  | .rleDec => 1
  | .rleEnc => 1
  | .cqNear => 1
  | .cqPix => 1
  | .clrErr => 1
  | .cmdReserved _ => 1

/-! ### Pseudo-tokens (R73) -/

/-- `ESC v` for `v >= 0xC0` (R73): the escape of a single high byte. -/
def pseudoEsc (v : Byte) : Instr := .run 1#6 v

/-- The token of a maximal run of `n` bytes `v`, `1 <= n <= 63` (R104, R73): a literal only for one byte below 0xC0. -/
def runToken (n : Nat) (v : Byte) : Instr :=
  if 1 < n ∨ isRunMarker v = true then .run (BitVec.ofNat 6 n) v else .lit v

/-- `REP k, v` (R73): full runs of 63, then the token of the remainder, if any. -/
def pseudoRep (k : Nat) (v : Byte) : List Instr :=
  List.replicate (k / Config.runMax) (.run (BitVec.ofNat 6 Config.runMax) v) ++
    (if k % Config.runMax = 0 then [] else [runToken (k % Config.runMax) v])

/-! ### The opcode table's words -/

/-- Byte `k` of a table word: bit 0 is the least significant bit of the first byte. -/
def wordByte (w k : Nat) : Byte := BitVec.ofNat 8 (w / 256 ^ k)

/-- In which space a table word is read. The table's two spaces use the same byte values and a word carries no space, so
the model must pick (log 16, DESIGN CHOICE): a word longer than one byte is a token; a one-byte word is read in the space
whose matching row fixes more bits, the token row where both fix equally many. That is: 0x80 and above a token, below
0x80 a command. -/
def tableSpace (nbits w : Nat) : InstrSpace :=
  if 8 < nbits then .token else if 0x80 ≤ (wordByte (w % 2 ^ nbits) 0).toNat then .token else .command

/-- The bytes of a table word as the hardware stores them: two bytes for a token (the bits above `nbits` are 0), one for a
command. -/
def tableBytes (nbits w : Nat) : List Byte :=
  match tableSpace nbits w with
  | .token => [wordByte (w % 2 ^ nbits) 0, wordByte (w % 2 ^ nbits) 1]
  | .command => [wordByte (w % 2 ^ nbits) 0]

/-- The instruction the decoder reads from a word of the opcode table. -/
def decodeTableWord (nbits w : Nat) : Option Instr :=
  match decode (tableSpace nbits w) (tableBytes nbits w) with
  | .ok (i, _) => some i
  | .error _ => none

end Sys2Proof
end

