-- ==== Sys2Proof/Machine/State.lean ====
section
/-! DEFINITION. The state of the block and of the script that drives it, and the state after reset. -/

namespace Sys2Proof.Machine

/-- One palette entry: "each channel an 8-bit unsigned integer" (R22). -/
structure Rgb where
  r : Byte
  g : Byte
  b : Byte
deriving DecidableEq, Repr

/-- The palette register file, "length is always 256" (R22). -/
abbrev Palette := Vector Rgb Config.palEntries

/-- The five byte spaces (R40). -/
inductive ByteSpace where
  | pin
  | din
  | dout
  | ein
  | eout
deriving DecidableEq, Repr

/-- The bytes of one space that have been written since reset: addresses strictly rising. An unlisted address holds no
written byte, and a read of it gives a free value (log 6). -/
abbrev Memory := List Host.Cell

/-- The result a command completes with (R70, R180). -/
inductive Result where
  | ok
  | sizeMismatch
  | paletteNotLoaded
  | badLength
  | badCommand
deriving DecidableEq, Repr

/-- How much of a command one step runs (R7): all of it, or one token (`DecStep` R84, `EncStep` R102, D36; log 5). -/
inductive Grain where
  | command
  | token
deriving DecidableEq, Repr

/-- Where the block stands: between commands or at the start of one (`whole`), or between two tokens of an `RLE.DEC` or
`RLE.ENC` that is stepped token by token (R7, D36; log 5). -/
inductive Stage where
  | whole
  | decoding
  | encoding
deriving DecidableEq, Repr

/-- The open parameters (R5, R28, U13; log 2): the populated extents of the five spaces, and the grain of a step (log 5).
No step changes them. -/
structure Params where
  pinCap  : Nat
  dinCap  : Nat
  doutCap : Nat
  einCap  : Nat
  eoutCap : Nat
  grain   : Grain
deriving DecidableEq, Repr

/-- One item of the script from outside: a host transaction (00_scope.md section 6, R74) or the `rst` input (R200).
Registers are named by their numbers (R10). -/
inductive HostMove where
  /-- `HostWrite`; a register takes exactly its own width (R29). -/
  | write (num : Byte) (v : Nat)
  /-- `HostRead`. -/
  | read (num : Byte)
  /-- `HostWriteByte`. -/
  | writeByte (sp : ByteSpace) (a : Nat) (v : Byte)
  /-- `HostReadByte`. -/
  | readByte (sp : ByteSpace) (a : Nat)
  /-- `rst` raised between commands (R203). -/
  | rst
  /-- `rst` raised at once, a command in flight or not (R203). -/
  | rstAtOnce
  /-- `HostRead(STATUS)` made at once, a command in flight or not: it "is always legal" (R29, R205, R212). -/
  | pollStatus
deriving DecidableEq, Repr

/-- What a host read returned. -/
inductive HostReply where
  | reg (num : Byte) (v : Nat)
  | byte (sp : ByteSpace) (a : Nat) (v : Byte)
deriving DecidableEq, Repr

/-- The machine stops. No command and no token faults (R66, R188, R189). -/
inductive Fault where
  /-- Raised by the step if it would interpret a token from no bytes. Safe: the loop test of R83 stands before every fetch,
  so no state raises it (log 21). -/
  | emptyTokenStream
deriving DecidableEq, Repr

/-- A move the model gives no meaning. -/
inductive Refusal where
  /-- Raised by an arm of `exec` whose instruction has no meaning yet. Safe. No arm raises it now. -/
  | notModelled (mnemonic : String)
  /-- Raised by a host read or write of a register number 0x11 to 0xFF (R31, U7; log 12). Safe: the spec gives it no meaning. -/
  | reservedRegister (num : Byte)
  /-- Raised by a host byte access outside the populated extent (R46, U8; log 12). Safe: the spec gives it no meaning. -/
  | outsideExtent (sp : ByteSpace) (a : Nat)
  /-- Raised by a host write of a value wider than the register, which R29 says is not possible (log 12). Safe. -/
  | valueTooWide (num : Byte)
deriving DecidableEq, Repr

/-- The state: the 17 registers of R10, the palette file (R22), the five byte spaces (R24), and the model's own fields. -/
structure State where
  /-- `CMD` (R11). -/
  cmd     : Byte
  /-- `STATUS` (R12): bit 0 `BUSY`, 1 `DONE`, 2 `PALV`, 3 `ESTICKY`. -/
  status  : Byte
  /-- `RESULT` (R13). -/
  result  : Byte
  /-- `PLEN` (R19). -/
  plen    : Word
  /-- `DILEN` (R15). -/
  dilen   : Word
  /-- `DSIZE` (R15). -/
  dsize   : Word
  /-- `DIPOS` (R14, R16). -/
  dipos   : Word
  /-- `DOPOS` (R16). -/
  dopos   : Word
  /-- `DFLAGS` (R17): bit 0 `TRUNC`, 1 `CLIP`, 2 `ZRUN`, 3 `DANGLE`. -/
  dflags  : Byte
  /-- `EILEN` (R18). -/
  eilen   : Word
  /-- `EIPOS` (R14, R18). -/
  eipos   : Word
  /-- `EOLEN` (R18), `AW + 1` bits. -/
  eolen   : WideWord
  /-- `QR` (R20). -/
  qr      : Byte
  /-- `QG` (R20). -/
  qg      : Byte
  /-- `QB` (R20). -/
  qb      : Byte
  /-- `QA` (R20). -/
  qa      : Byte
  /-- `QIDX` (R21). -/
  qidx    : Byte
  /-- `PAL` (R22). -/
  pal     : Palette
  /-- `PIN` (R40). -/
  pin     : Memory
  /-- `DIN` (R40). -/
  din     : Memory
  /-- `DOUT` (R40). -/
  dout    : Memory
  /-- `EIN` (R40). -/
  ein     : Memory
  /-- `EOUT` (R40). -/
  eout    : Memory
  /-- The open parameters (the model's own field, log 2). -/
  params  : Params
  /-- Where the block stands (the model's own field, log 5). -/
  stage   : Stage
  /-- The script still to be performed (the model's own field, log 3). -/
  host    : List HostMove
  /-- What the host has read, newest first (the model's own field, log 3). -/
  replies : List HostReply
  /-- How many times `rst` was raised: indexes the free contents of what nothing has written (log 6). -/
  epoch   : Nat
  /-- How many times `CMD` was read: indexes its free value (log 11). -/
  draws   : Nat
deriving DecidableEq, Repr

/-- The largest extents R5 and R40 allow, at which no command is refused for length (R46), and whole-command steps (R7).
DESIGN CHOICE (logs 2 and 5). -/
def Params.largest : Params where
  pinCap := 2 ^ AW
  dinCap := 2 ^ AW - 1
  doutCap := 2 ^ AW - 1
  einCap := 2 ^ AW - 1
  eoutCap := 2 ^ (AW + 1) - 2
  grain := .command

/-- The machine right after reset (R30, R201). Unspecified there, and so named by the log: `CMD` (log 9), `QR`, `QG`, `QB`,
`QA`, `QIDX` (log 7), `PAL` (log 8). -/
def State.reset : State where
  cmd := 0#8
  status := 0#8
  result := 0#8
  plen := 0#AW
  dilen := 0#AW
  dsize := 0#AW
  dipos := 0#AW
  dopos := 0#AW
  dflags := 0#8
  eilen := 0#AW
  eipos := 0#AW
  eolen := 0#(AW + 1)
  qr := 0#8
  qg := 0#8
  qb := 0#8
  qa := 0#8
  qidx := 0#8
  pal := Vector.replicate Config.palEntries ⟨0#8, 0#8, 0#8⟩
  pin := []
  din := []
  dout := []
  ein := []
  eout := []
  params := Params.largest
  stage := .whole
  host := []
  replies := []
  epoch := 0
  draws := 0

end Sys2Proof.Machine
end

