-- ==== Sys2Proof/Machine/Flags.lean ====
section
/-! DEFINITION. The bits of STATUS (R12) and DFLAGS (R17), and how each is computed. -/

namespace Sys2Proof.Machine

/-- A flag register with bit `i` set to `v`. -/
def withBit (b : Byte) (i : Nat) (v : Bool) : Byte :=
  if v then b ||| BitVec.twoPow 8 i else b &&& ~~~(BitVec.twoPow 8 i)

/-- `STATUS.BUSY` (R12): a command is running. -/
def State.busy (s : State) : Bool := s.status.getLsbD 0

/-- `STATUS.DONE` (R12): a command has completed since reset and none is running. -/
def State.done (s : State) : Bool := s.status.getLsbD 1

/-- `STATUS.PALV` (R12, R23): `PAL` holds a palette that a `PAL.LOAD` completing `OK` wrote. -/
def State.palv (s : State) : Bool := s.status.getLsbD 2

/-- `STATUS.ESTICKY` (R12): a command was refused since the last `CLRERR` or reset. -/
def State.esticky (s : State) : Bool := s.status.getLsbD 3

/-- `DFLAGS.TRUNC` (R17). -/
def State.trunc (s : State) : Bool := s.dflags.getLsbD 0

/-- `DFLAGS.CLIP` (R17). -/
def State.clip (s : State) : Bool := s.dflags.getLsbD 1

/-- `DFLAGS.ZRUN` (R17). -/
def State.zrun (s : State) : Bool := s.dflags.getLsbD 2

/-- `DFLAGS.DANGLE` (R17). -/
def State.dangle (s : State) : Bool := s.dflags.getLsbD 3

/-- STATUS from the write of `CMD` on: `BUSY` 1, `DONE` 0 (R12, D6). -/
def statusStarted (b : Byte) : Byte := withBit (withBit b 0 true) 1 false

/-- STATUS at the end of every command: `BUSY` 0, `DONE` 1 (R12, R187). -/
def statusEnded (b : Byte) : Byte := withBit (withBit b 0 false) 1 true

/-- STATUS with `PALV` set (R23, R117). -/
def statusPaletteValid (b : Byte) : Byte := withBit b 2 true

/-- STATUS with `ESTICKY` set, by a refusal (R186). -/
def statusStickyError (b : Byte) : Byte := withBit b 3 true

/-- STATUS with `ESTICKY` cleared, by `CLRERR` (R145). -/
def statusErrorCleared (b : Byte) : Byte := withBit b 3 false

/-- DFLAGS at the end of `RLE.DEC`: `TRUNC <- (DOPOS < DSIZE)` (R83). -/
def flagsAtEnd (b : Byte) (outputShort : Bool) : Byte := withBit b 0 outputShort

/-- DFLAGS after a run token of count `n` of which `m` bytes were written (R84): `ZRUN` if `n = 0`, `CLIP` if `m < n`. -/
def flagsAfterRun (b : Byte) (n m : Nat) : Byte :=
  let b := if n = 0 then withBit b 2 true else b
  if m < n then withBit b 1 true else b

/-- DFLAGS after a dangling marker (R84, R89). -/
def flagsAfterMark (b : Byte) : Byte := withBit b 3 true

end Sys2Proof.Machine
end

