-- ==== Sys2Proof/Machine/Ops.lean ====
section
/-! DEFINITION. The named operations over the byte spaces and the registers; refusing a command and completing one. -/

namespace Sys2Proof.Machine

/-! ### One byte space -/

/-- The byte written at an address, if any. -/
def Memory.byteAt : Memory → Nat → Option Byte
  | [], _ => none
  | (b, v) :: rest, a => if a = b then some v else Memory.byteAt rest a

/-- `MemWrite(S, a, 1, v)`: store one byte, keeping the addresses strictly rising. -/
def Memory.put : Memory → Nat → Byte → Memory
  | [], a, v => [(a, v)]
  | (b, w) :: rest, a, v =>
    if a < b then (a, v) :: (b, w) :: rest
    else if a = b then (a, v) :: rest
    else (b, w) :: Memory.put rest a v

/-- Store `n` copies of `v` at ascending addresses from `a` (R54, R82, R84). -/
def Memory.fill (m : Memory) (a : Nat) : Nat → Byte → Memory
  | 0, _ => m
  | n + 1, v => Memory.fill (m.put a v) (a + 1) n v

/-- Store the bytes of a list at ascending addresses from `a` (R54, R102). -/
def Memory.putAll (m : Memory) (a : Nat) : List Byte → Memory
  | [] => m
  | v :: vs => Memory.putAll (m.put a v) (a + 1) vs

/-- Every address of the space is at least `a`, and the addresses rise strictly. -/
def Memory.wfFrom : Nat → Memory → Bool
  | _, [] => true
  | a, (b, _) :: rest => decide (a ≤ b) && Memory.wfFrom (b + 1) rest

/-- The canonical form: addresses strictly rising. An unlisted address reads as no written byte, so no entry can equal what
an unlisted address reads as. -/
def Memory.wf (m : Memory) : Bool := Memory.wfFrom 0 m

/-- Every listed address lies inside an extent of `cap` bytes (R46). -/
def Memory.within (m : Memory) (cap : Nat) : Bool := m.all fun c => decide (c.1 < cap)

/-! ### The five spaces -/

/-- The number of a space, as the free values count them. -/
def ByteSpace.index : ByteSpace → Nat
  | .pin => 0
  | .din => 1
  | .dout => 2
  | .ein => 3
  | .eout => 4

/-- The contents of a space. -/
def State.mem (s : State) : ByteSpace → Memory
  | .pin => s.pin
  | .din => s.din
  | .dout => s.dout
  | .ein => s.ein
  | .eout => s.eout

/-- The populated extent of a space (R5, R46). -/
def Params.cap (p : Params) : ByteSpace → Nat
  | .pin => p.pinCap
  | .din => p.dinCap
  | .dout => p.doutCap
  | .ein => p.einCap
  | .eout => p.eoutCap

/-- `MemRead(S, a, 1)`. A byte that nothing has written since reset is a free value (R202, U3; log 6). -/
def State.readByte (s : State) (sp : ByteSpace) (a : Nat) : Byte :=
  ((s.mem sp).byteAt a).getD (Config.powerOnByte s.epoch sp.index a)

/-- `MemWrite(S, a, 1, v)` in a space: no other space changes, none aliases another (R40). -/
def State.writeByte (s : State) (sp : ByteSpace) (a : Nat) (v : Byte) : State :=
  match sp with
  | .pin => { s with pin := s.pin.put a v }
  | .din => { s with din := s.din.put a v }
  | .dout => { s with dout := s.dout.put a v }
  | .ein => { s with ein := s.ein.put a v }
  | .eout => { s with eout := s.eout.put a v }

/-! ### Beginning, completing and refusing a command -/

/-- The numeric result codes (R70). -/
def Result.code : Result → Byte
  | .ok => 0x00#8
  | .sizeMismatch => 0x01#8
  | .paletteNotLoaded => 0x02#8
  | .badLength => 0x03#8
  | .badCommand => 0x04#8

/-- `HostWrite(CMD, c)` on an idle block (R11, R12): the code is latched, `BUSY` set and `DONE` cleared. -/
def State.start (s : State) (c : Byte) : State :=
  { s with cmd := c, status := statusStarted s.status, stage := .whole }

/-- The end of a command that did its work (R187): `RESULT <- OK`, `BUSY <- 0`, `DONE <- 1`; `ESTICKY` is kept. -/
def State.complete (s : State) : State :=
  { s with result := Result.ok.code, status := statusEnded s.status, stage := .whole }

/-- `raise X` (R186), the one way a command is refused: `RESULT` takes the code, `ESTICKY <- 1`, `BUSY <- 0`, `DONE <- 1`, and
nothing else of the block changes. There is no handler and nothing to return from (R188). -/
def State.raise (s : State) (r : Result) : State :=
  { s with result := r.code, status := statusEnded (statusStickyError s.status), stage := .whole }

end Sys2Proof.Machine
end

