-- ==== Sys2Proof/Machine/Operands.lean ====
section
/-! DEFINITION. The operand forms: cursors and the bytes they address (R150), the blob entry (R76), the run length (R103), the
pixel (R75). -/

namespace Sys2Proof.Machine

/-- The loop test of `RLE.DEC` (R83): output room and input are left. -/
abbrev State.decoderActive (s : State) : Prop :=
  s.dopos.toNat < s.dsize.toNat ∧ s.dipos.toNat < s.dilen.toNat

/-- The loop test of `RLE.ENC` (R105). -/
abbrev State.encoderActive (s : State) : Prop := s.eipos.toNat < s.eilen.toNat

/-- `DSIZE - DOPOS` (R151): the room left in the output. -/
def State.outputRoom (s : State) : Nat := s.dsize.toNat - s.dopos.toNat

/-- The bytes a token is decoded from (R84, R150): the control byte at `DIPOS`, and the byte after it if it lies below `DILEN`.
`DIN[DILEN]` is never read (R89). -/
def State.tokenBytes (s : State) : List Byte :=
  (List.range' s.dipos.toNat (min 2 (s.dilen.toNat - s.dipos.toNat))).map (s.readByte .din)

/-- Extend a run of `v` from length `n` by at most the fuel (R103). -/
def extendRun (byteOf : Nat → Byte) (len p : Nat) (v : Byte) : Nat → Nat → Nat
  | 0, n => n
  | fuel + 1, n =>
    if p + n < len ∧ byteOf (p + n) = v then extendRun byteOf len p v fuel (n + 1) else n

/-- `RunLength(p)` (R103): 1 to 63, capped by `RUN_MAX`, the end of input and the first different byte. -/
def runLength (byteOf : Nat → Byte) (len p : Nat) : Nat :=
  extendRun byteOf len p (byteOf p) (Config.runMax - 1) 1

/-- The run length at `EIPOS`. -/
def State.encoderRun (s : State) : Nat := runLength (s.readByte .ein) s.eilen.toNat s.eipos.toNat

/-- Entry `i` of the palette blob (R76, R117): bytes 3i, 3i+1, 3i+2 of `PIN` are its R, G and B. -/
def State.blobEntry (s : State) (i : Nat) : Rgb where
  r := s.readByte .pin (3 * i)
  g := s.readByte .pin (3 * i + 1)
  b := s.readByte .pin (3 * i + 2)

end Sys2Proof.Machine
end

