-- ==== Sys2Proof/Machine/PaletteLoad.lean ====
section
/-! DEFINITION. The palette loader: the command PAL.LOAD (42_palette.md). -/

namespace Sys2Proof.Machine

/-- The palette in `PIN` (R117): "256 RGB triples in order". -/
def State.blobPalette (s : State) : Palette := Vector.ofFn fun i => s.blobEntry i.val

/-- `PAL.LOAD` (R115 to R120): refused unless `PLEN = 768`, else all 256 entries at once and `PALV <- 1`. -/
def execPalLoad (s : State) : Host.Outcome State Fault Refusal :=
  .next (if s.plen.toNat ≠ Config.palBytes then s.raise .sizeMismatch
    else State.complete { s with pal := s.blobPalette, status := statusPaletteValid s.status })

end Sys2Proof.Machine
end

