-- ==== Sys2Proof/Machine/Quantizer.lean ====
section
/-! DEFINITION. The colour quantizer: distance, search, comparator tree, and the commands CQ.NEAR and CQ.PIX
(43_quantizer.md). -/

namespace Sys2Proof.Machine

/-- A signed channel difference, -255 to 255 (R127, R136): widened before the subtraction. -/
def channelDiff (x y : Byte) : Int := (x.toNat : Int) - (y.toNat : Int)

/-- `Dist` (R127): the squared Euclidean distance, exact, 0 to 195075 (R136). -/
def dist (r g b : Byte) (p : Rgb) : Nat :=
  (channelDiff r p.r * channelDiff r p.r + channelDiff g p.g * channelDiff g p.g
    + channelDiff b p.b * channelDiff b p.b).toNat

/-- Palette entry `i`. The search asks for 1 to 255 only. -/
def Palette.entry (pal : Palette) (i : Nat) : Rgb := pal.getD i ⟨0#8, 0#8, 0#8⟩

/-- The ascending scan (R128) over the candidates left: the best-so-far pair `(best, bd)` (R25) is replaced on strict
improvement only. -/
def scan (d : Nat → Nat) : List Nat → Nat × Nat → Nat × Nat
  | [], best => best
  | i :: rest, best => scan d rest (if d i < best.2 then (i, d i) else best)

/-- The candidates after the first: 2 to 255 (R128). -/
def laterCandidates : List Nat :=
  List.range' (Config.firstCandidate + 1) (Config.palEntries - Config.firstCandidate - 1)

/-- The index `Nearest` finds (R128), for distances `d` of the candidates: the scan starts at candidate 1. -/
def nearestIndex (d : Nat → Nat) : Nat :=
  (scan d laterCandidates (Config.firstCandidate, d Config.firstCandidate)).1

/-- `Nearest(r, g, b)` over a palette (R128). -/
def nearest (r g b : Byte) (pal : Palette) : Byte :=
  BitVec.ofNat 8 (nearestIndex fun i => dist r g b (pal.entry i))

/-- The per-pixel rule (R132, R133): alpha at or under the threshold gives index 0 and no search. -/
def pixelIndex (r g b a : Byte) (pal : Palette) : Byte :=
  if a.toNat ≤ Config.alphaThreshold then Config.transparentIndex else nearest r g b pal

/-- `CQ.NEAR` (R131): `QA` is not read. -/
def execCqNear (s : State) : Host.Outcome State Fault Refusal :=
  .next (if s.palv = false then s.raise .paletteNotLoaded
    else State.complete { s with qidx := nearest s.qr s.qg s.qb s.pal })

/-- `CQ.PIX` (R132): the palette check comes before the alpha test (R126). -/
def execCqPix (s : State) : Host.Outcome State Fault Refusal :=
  .next (if s.palv = false then s.raise .paletteNotLoaded
    else State.complete { s with qidx := pixelIndex s.qr s.qg s.qb s.qa s.pal })

/-! ### The comparator tree (R134, D23) -/

/-- A reduction tree over candidates. -/
inductive CompareTree where
  | leaf (i : Nat)
  | node (l r : CompareTree)
deriving DecidableEq, Repr

/-- The candidates at the leaves. -/
def CompareTree.leaves : CompareTree → List Nat
  | .leaf i => [i]
  | .node l r => l.leaves ++ r.leaves

/-- Of two pairs `(index, distance)`, the one with the smaller distance, and of equal distances the smaller index (R134 (b)). -/
def closer (x y : Nat × Nat) : Nat × Nat :=
  if x.2 < y.2 ∨ (x.2 = y.2 ∧ x.1 ≤ y.1) then x else y

/-- The pair at the root (R134). -/
def CompareTree.reduce (d : Nat → Nat) : CompareTree → Nat × Nat
  | .leaf i => (i, d i)
  | .node l r => closer (l.reduce d) (r.reduce d)

end Sys2Proof.Machine
end

