-- ==== Sys2Proof/Machine/RleDecode.lean ====
section
/-! DEFINITION. The RLE decoder: the tokens LIT, RUN, RUN0, MARK and the command RLE.DEC (40_rle_decode.md). -/

namespace Sys2Proof.Machine

/-! ### The effect of one token (R84) -/

/-- A literal (R84, R85). -/
def literalEffect (v : Byte) (s : State) : State :=
  { s with
    dout := s.dout.put s.dopos.toNat v
    dopos := s.dopos + 1#AW
    dipos := s.dipos + 1#AW }

/-- A run marker with no value byte after it (R84, R89): consumed, nothing written, `DANGLE` set. -/
def danglingEffect (s : State) : State :=
  { s with
    dipos := s.dipos + 1#AW
    dflags := flagsAfterMark s.dflags }

/-- A run token of count `n` with its value byte (R84, R86, R87, R88): `min(n, DSIZE - DOPOS)` copies are written. -/
def runEffect (n : Nat) (v : Byte) (s : State) : State :=
  let m := min n s.outputRoom
  { s with
    dout := s.dout.fill s.dopos.toNat m v
    dopos := s.dopos + BitVec.ofNat AW m
    dipos := s.dipos + 2#AW
    dflags := flagsAfterRun s.dflags n m }

/-- The run-marker branch of `DecStep` (R84): dangling if `DIPOS + 1 = DILEN`, else a run. -/
def markerEffect (n : Nat) (v : Byte) (s : State) : State :=
  if s.dipos.toNat + 1 = s.dilen.toNat then danglingEffect s else runEffect n v s

/-- A token is interpreted only while the loop test of R83 holds; otherwise it is not interpreted and changes nothing
(R83, R91; log 13). -/
def ifInterpreted (effect : State → State) (s : State) : State :=
  if s.decoderActive then effect s else s

/-- `LIT v` (R85). -/
def execLit (v : Byte) (s : State) : Host.Outcome State Fault Refusal :=
  .next (ifInterpreted (literalEffect v) s)

/-- `RUN n, v` (R86, R87). -/
def execRun (n : BitVec 6) (v : Byte) (s : State) : Host.Outcome State Fault Refusal :=
  .next (ifInterpreted (markerEffect n.toNat v) s)

/-- `RUN0 v` (R88). -/
def execRun0 (v : Byte) (s : State) : Host.Outcome State Fault Refusal :=
  .next (ifInterpreted (markerEffect 0 v) s)

/-- `MARK n` (R89): the count has no effect. -/
def execMark (_n : BitVec 6) (s : State) : Host.Outcome State Fault Refusal :=
  .next (ifInterpreted danglingEffect s)

/-! ### The command (R80 to R83) -/

/-- The effect of a decoded token on the state; a stream holds no command. -/
def tokenEffect (i : Instr) (s : State) : State :=
  match i with
  | .lit v => literalEffect v s
  | .run n v => markerEffect n.toNat v s
  | .run0 v => markerEffect 0 v s
  | .mark _ => danglingEffect s
  | .palLoad | .rleDec | .rleEnc | .cqNear | .cqPix | .clrErr | .cmdReserved _ => s

/-- `DecStep` (R84): decode the token at `DIPOS` and interpret it. -/
def decStep (s : State) : State :=
  match decodeToken s.tokenBytes with
  | .ok (i, _) => tokenEffect i s
  | .error _ => s

/-- The checks of `RLE.DEC` (R81): one of its lengths passes an extent. -/
abbrev State.decodeTooLong (s : State) : Prop :=
  s.params.dinCap < s.dilen.toNat ∨ s.params.doutCap < s.dsize.toNat

/-- The initialisation of `RLE.DEC` (R82): cursors and flags cleared, `DOUT[0..DSIZE-1]` zero-filled. -/
def decodeStart (s : State) : State :=
  { s with
    dipos := 0#AW
    dopos := 0#AW
    dflags := 0#8
    dout := s.dout.fill 0 s.dsize.toNat 0x00#8 }

/-- The loop of `RLE.DEC` (R83). The fuel is a bound on the tokens left (R93 (a), R215). -/
def decodeLoop : Nat → State → State
  | 0, s => s
  | fuel + 1, s => if s.decoderActive then decodeLoop fuel (decStep s) else s

/-- The end of `RLE.DEC` (R83): `TRUNC <- (DOPOS < DSIZE)` and `OK`. -/
def decodeFinish (s : State) : State :=
  State.complete { s with dflags := flagsAtEnd s.dflags (decide (s.dopos.toNat < s.dsize.toNat)) }

/-- `RLE.DEC` (R80 to R83, R92): refused for its lengths, or run to its end. -/
def execRleDec (s : State) : Host.Outcome State Fault Refusal :=
  .next (if s.decodeTooLong then s.raise .badLength
    else decodeFinish (decodeLoop s.dilen.toNat (decodeStart s)))

/-- `RLE.DEC` stepped by token (R7, D36; log 5): the checks and the initialisation, after which the block stands between
tokens. -/
def decodeBegin (s : State) : State :=
  if s.decodeTooLong then s.raise .badLength else { decodeStart s with stage := .decoding }

end Sys2Proof.Machine
end

