-- ==== Sys2Proof/Machine/RleEncode.lean ====
section
/-! DEFINITION. The RLE encoder: the command RLE.ENC (41_rle_encode.md). -/

namespace Sys2Proof.Machine

/-- The token `EncStep` emits at `EIPOS` (R102, R104): a run if the run is longer than 1 or the byte is a run marker (the
escape), else a literal. -/
def State.encoderToken (s : State) : Instr :=
  runToken s.encoderRun (s.readByte .ein s.eipos.toNat)

/-- `EncStep` (R102): the token's bytes at `EOLEN`, then both cursors forward. -/
def encStep (s : State) : State :=
  { s with
    eout := s.eout.putAll s.eolen.toNat (encode s.encoderToken)
    eolen := s.eolen + BitVec.ofNat (AW + 1) (encode s.encoderToken).length
    eipos := s.eipos + BitVec.ofNat AW s.encoderRun }

/-- The checks of `RLE.ENC` (R101): the input, or the room for the worst case, passes an extent. -/
abbrev State.encodeTooLong (s : State) : Prop :=
  s.params.einCap < s.eilen.toNat ∨ s.params.eoutCap < 2 * s.eilen.toNat

/-- The initialisation of `RLE.ENC` (R105). -/
def encodeStart (s : State) : State :=
  { s with
    eipos := 0#AW
    eolen := 0#(AW + 1) }

/-- The loop of `RLE.ENC` (R105). The fuel is a bound on the tokens left (R107 (a), R215). -/
def encodeLoop : Nat → State → State
  | 0, s => s
  | fuel + 1, s => if s.encoderActive then encodeLoop fuel (encStep s) else s

/-- `RLE.ENC` (R100 to R105): refused for its lengths, or run to its end. -/
def execRleEnc (s : State) : Host.Outcome State Fault Refusal :=
  .next (if s.encodeTooLong then s.raise .badLength
    else (encodeLoop s.eilen.toNat (encodeStart s)).complete)

/-- `RLE.ENC` stepped by token (R7, D36; log 5): the checks and the initialisation. -/
def encodeBegin (s : State) : State :=
  if s.encodeTooLong then s.raise .badLength else { encodeStart s with stage := .encoding }

end Sys2Proof.Machine
end

