-- ==== Sys2Proof/Machine/System.lean ====
section
/-! DEFINITION. The system commands: CLRERR and the reserved codes (44_system_commands.md). -/

namespace Sys2Proof.Machine

/-- `CLRERR` (R145): it cannot be refused. -/
def execClrErr (s : State) : Host.Outcome State Fault Refusal :=
  .next (State.complete { s with status := statusErrorCleared s.status })

/-- A reserved command code (R146, R184): `BadCommand`; the code has no effect. -/
def execCmdReserved (_code : Byte) (s : State) : Host.Outcome State Fault Refusal :=
  .next (s.raise .badCommand)

end Sys2Proof.Machine
end

