-- ==== Sys2Proof/Machine/Dispatch.lean ====
section
/-! DEFINITION. One arm per instruction. -/

namespace Sys2Proof.Machine

def exec (i : Instr) (s : State) : Host.Outcome State Fault Refusal :=
  match i with
  | .lit v => Sys2Proof.Machine.execLit v s
  | .run n v => Sys2Proof.Machine.execRun n v s
  | .run0 v => Sys2Proof.Machine.execRun0 v s
  | .mark n => Sys2Proof.Machine.execMark n s
  | .palLoad => Sys2Proof.Machine.execPalLoad s
  | .rleDec => Sys2Proof.Machine.execRleDec s
  | .rleEnc => Sys2Proof.Machine.execRleEnc s
  | .cqNear => Sys2Proof.Machine.execCqNear s
  | .cqPix => Sys2Proof.Machine.execCqPix s
  | .clrErr => Sys2Proof.Machine.execClrErr s
  | .cmdReserved c => Sys2Proof.Machine.execCmdReserved c s

end Sys2Proof.Machine
end

