-- ==== Sys2Proof/Machine/HostPort.lean ====
section
/-! DEFINITION. The host port: the four transactions (00_scope.md section 6, R10, R29, R74) and the rst input (R200 to R203). -/

namespace Sys2Proof.Machine

/-- The width of a register by its number (R10); none for a reserved number (R31). -/
def registerWidth (num : Byte) : Option Nat :=
  match num.toNat with
  | 0x00 | 0x01 | 0x02 | 0x08 => some 8
  | 0x03 | 0x04 | 0x05 | 0x06 | 0x07 | 0x09 | 0x0A => some AW
  | 0x0B => some (AW + 1)
  | 0x0C | 0x0D | 0x0E | 0x0F | 0x10 => some 8
  | _ => none

/-- `HostRead` (R29): the value of a register; a read of `CMD` gives an unspecified value (R11, U6; log 11). -/
def State.registerValue (s : State) (num : Byte) : Nat :=
  match num.toNat with
  | 0x00 => (Config.cmdReadback s.draws).toNat
  | 0x01 => s.status.toNat
  | 0x02 => s.result.toNat
  | 0x03 => s.plen.toNat
  | 0x04 => s.dilen.toNat
  | 0x05 => s.dsize.toNat
  | 0x06 => s.dipos.toNat
  | 0x07 => s.dopos.toNat
  | 0x08 => s.dflags.toNat
  | 0x09 => s.eilen.toNat
  | 0x0A => s.eipos.toNat
  | 0x0B => s.eolen.toNat
  | 0x0C => s.qr.toNat
  | 0x0D => s.qg.toNat
  | 0x0E => s.qb.toNat
  | 0x0F => s.qa.toNat
  | 0x10 => s.qidx.toNat
  | _ => 0

/-- `HostWrite` of a value that fits (R29): `CMD` starts a command, the operand registers take the value, a register that is
read only to the host is left as it is. -/
def State.writeRegister (s : State) (num : Byte) (v : Nat) : State :=
  match num.toNat with
  | 0x00 => s.start (BitVec.ofNat 8 v)
  | 0x03 => { s with plen := BitVec.ofNat AW v }
  | 0x04 => { s with dilen := BitVec.ofNat AW v }
  | 0x05 => { s with dsize := BitVec.ofNat AW v }
  | 0x09 => { s with eilen := BitVec.ofNat AW v }
  | 0x0C => { s with qr := BitVec.ofNat 8 v }
  | 0x0D => { s with qg := BitVec.ofNat 8 v }
  | 0x0E => { s with qb := BitVec.ofNat 8 v }
  | 0x0F => { s with qa := BitVec.ofNat 8 v }
  | _ => s

/-- The host learns a value. -/
def State.reply (s : State) (r : HostReply) : State := { s with replies := r :: s.replies }

/-- `HostRead(STATUS)`, the one transaction that is legal while a command runs (R29, R205). -/
def State.polled (s : State) : State := s.reply (.reg 0x01#8 s.status.toNat)

/-- A read of `CMD` uses up one free value (log 11). -/
def State.countDraw (s : State) (num : Byte) : State :=
  if num.toNat = 0 then { s with draws := s.draws + 1 } else s

/-- `rst` (R200 to R203): the reset state, with every value R30 lists as unspecified a free one (log 10). What is outside the
block (the script left, what the host has read) and the open parameters stay. -/
def State.afterRst (s : State) : State :=
  { State.reset with
    qr := Config.powerOnRegister (s.epoch + 1) 0
    qg := Config.powerOnRegister (s.epoch + 1) 1
    qb := Config.powerOnRegister (s.epoch + 1) 2
    qa := Config.powerOnRegister (s.epoch + 1) 3
    qidx := Config.powerOnRegister (s.epoch + 1) 4
    pal := Vector.ofFn fun i =>
      ⟨Config.powerOnPalette (s.epoch + 1) i.val 0, Config.powerOnPalette (s.epoch + 1) i.val 1,
        Config.powerOnPalette (s.epoch + 1) i.val 2⟩
    params := s.params
    host := s.host
    replies := s.replies
    epoch := s.epoch + 1
    draws := s.draws }

/-- One move of the host on an idle block, already taken off the script. -/
def hostMove (m : HostMove) (s : State) : Host.Outcome State Fault Refusal :=
  match m with
  | .write num v =>
    match registerWidth num with
    | none => .refused (.reservedRegister num)
    | some w => if v < 2 ^ w then .next (s.writeRegister num v) else .refused (.valueTooWide num)
  | .read num =>
    match registerWidth num with
    | none => .refused (.reservedRegister num)
    | some _ => .next ((s.reply (.reg num (s.registerValue num))).countDraw num)
  | .writeByte sp a v =>
    if a < s.params.cap sp then .next (s.writeByte sp a v) else .refused (.outsideExtent sp a)
  | .readByte sp a =>
    if a < s.params.cap sp then .next (s.reply (.byte sp a (s.readByte sp a))) else .refused (.outsideExtent sp a)
  | .rst => .next s.afterRst
  | .rstAtOnce => .next s.afterRst
  | .pollStatus => .next s.polled

/-- The script line `CMD M` (R74): write the code, then read `STATUS`. One read is enough, since the command is one step
(R212). -/
def commandLine (code : Byte) : List HostMove := [.write 0x00#8 code.toNat, .read 0x01#8]

/-- The script line `WRB S, a, b0 b1 …` (R74). -/
def writeBytesLine (sp : ByteSpace) (a : Nat) : List Byte → List HostMove
  | [] => []
  | v :: vs => .writeByte sp a v :: writeBytesLine sp (a + 1) vs

/-- The script line `RDB S, a, k` (R74). -/
def readBytesLine (sp : ByteSpace) (a k : Nat) : List HostMove :=
  (List.range' a k).map (HostMove.readByte sp)

end Sys2Proof.Machine
end

