-- ==== Sys2Proof/Machine/Sequencer.lean ====
section
/-! DEFINITION. Who moves, and what the block's move runs (R7, R193); how an instruction is placed for the next step. -/

namespace Sys2Proof.Machine

/-- The block's move at the start of a command (R193): the command in `CMD` is decoded and run to its end. At token grain
(R7, D36; log 5) the two RLE commands only begin here. -/
def commandMove (s : State) : Host.Outcome State Fault Refusal :=
  match s.params.grain, decodeCommand s.cmd with
  | .token, .rleDec => .next (decodeBegin s)
  | .token, .rleEnc => .next (encodeBegin s)
  | _, i => exec i s

/-- The block's move between two tokens of `RLE.DEC` (R83, R84): run the token at `DIPOS` while the loop test holds, else end the
command. -/
def tokenMove (s : State) : Host.Outcome State Fault Refusal :=
  if s.decoderActive then
    match decodeToken s.tokenBytes with
    | .ok (i, _) => exec i s
    | .error .noBytes => .fault .emptyTokenStream
  else .next (decodeFinish s)

/-- The block's move between two tokens of `RLE.ENC` (R102, R105). -/
def emitMove (s : State) : Host.Outcome State Fault Refusal :=
  .next (if s.encoderActive then encStep s else s.complete)

/-- The block's move (R193). -/
def blockMove (s : State) : Host.Outcome State Fault Refusal :=
  match s.stage with
  | .whole => commandMove s
  | .decoding => tokenMove s
  | .encoding => emitMove s

/-- The two agents alternate (R193): the block moves while `BUSY` is 1, the host while it is 0; an idle block with no host move
left holds its state (R196; log 18). `rst` raised at once (R203; log 10) and a poll of `STATUS` (R29, R205) come before both. -/
def nextMove (s : State) : Host.Outcome State Fault Refusal :=
  match s.host with
  | .rstAtOnce :: rest => .next (State.afterRst { s with host := rest })
  | .pollStatus :: rest => .next (State.polled { s with host := rest })
  | script =>
    if s.busy then blockMove s
    else
      match script with
      | [] => .next s
      | m :: rest => hostMove m { s with host := rest }

/-- `s` with a command code in `CMD` and the block about to run it, whole (log 17). -/
def State.withCommand (s : State) (c : Byte) : State :=
  { s.start c with
    host := []
    params := { s.params with grain := .command } }

/-- `s` with a token at the start of `DIN` and the decoder about to interpret it: `RLE.DEC` begun, room for the longest run
if `DSIZE` gave none (log 17). -/
def State.withToken (s : State) (bytes : List Byte) : State :=
  { s.start 0x02#8 with
    din := s.din.putAll 0 bytes
    dipos := 0#AW
    dopos := 0#AW
    dilen := BitVec.ofNat AW bytes.length
    dsize := if s.dsize = 0#AW then BitVec.ofNat AW Config.runMax else s.dsize
    stage := .decoding
    host := [] }

/-- A word of the opcode table placed where the next step fetches (log 17). -/
def State.placeWord (s : State) (nbits w : Nat) : State :=
  match tableSpace nbits w, tableBytes nbits w with
  | .token, bytes => s.withToken bytes
  | .command, c :: _ => s.withCommand c
  | .command, [] => s

end Sys2Proof.Machine
end

