-- ==== Sys2Proof/Machine/Step.lean ====
section
/-! DEFINITION. One step of the machine. -/

namespace Sys2Proof.Machine

/-- One step: one host move, or one move of the block (R7, R193). -/
def step (s : State) : Host.Outcome State Fault Refusal := nextMove s

/-- `s` with a word of the opcode table placed so that the very next step runs it (log 17). -/
def State.withFetchWord (s : State) (nbits w : Nat) : State := s.placeWord nbits w

end Sys2Proof.Machine
end

