-- ==== Sys2Proof/Machine/Reference.lean ====
section
/-! DEFINITION. The two streams as lists: what R92 calls the tokens interpreted and their output, and the tokens the encoder
emits (R102 to R104); the codec as functions of bytes. The step calls none of it; the claims compare the commands with it. -/

namespace Sys2Proof.Machine

/-- What a token gives (R92): a literal its value, a run its copies, `RUN0` and `MARK` nothing. A command is no token. -/
def outputOf : Instr → List Byte
  | .lit v => [v]
  | .run n v => List.replicate n.toNat v
  | .run0 _ => []
  | .mark _ => []
  | .palLoad => []
  | .rleDec => []
  | .rleEnc => []
  | .cqNear => []
  | .cqPix => []
  | .clrErr => []
  | .cmdReserved _ => []

/-- The tokens interpreted from a stream with `room` output bytes left (R83, R92): none once the output is full or the input
exhausted. The first argument is fuel: the number of bytes is enough. -/
def interpretedTokens : Nat → Nat → List Byte → List Instr
  | 0, _, _ => []
  | fuel + 1, room, bytes =>
    if room = 0 then []
    else
      match decodeToken bytes with
      | .error _ => []
      | .ok (i, rest) => i :: interpretedTokens fuel (room - (outputOf i).length) rest

/-- The length of the run a byte sequence opens with (R103): capped at 63. -/
def leadingRun : List Byte → Nat
  | [] => 0
  | v :: vs => min Config.runMax (1 + (vs.takeWhile (· == v)).length)

/-- The tokens of a raw byte sequence (R102 to R105). The first argument is fuel: the number of bytes is enough. -/
def emittedTokens : Nat → List Byte → List Instr
  | 0, _ => []
  | _ + 1, [] => []
  | fuel + 1, v :: vs =>
    runToken (leadingRun (v :: vs)) v :: emittedTokens fuel ((v :: vs).drop (leadingRun (v :: vs)))

/-- The RLE decoder as a function of bytes (R92): "(compressed bytes, decodedSize) -> raw bytes" (R68), the tokens' output cut to
the size or padded with zeros to it. -/
def decodedBytes (size : Nat) (compressed : List Byte) : List Byte :=
  let out := ((interpretedTokens compressed.length size compressed).flatMap outputOf).take size
  out ++ List.replicate (size - out.length) 0x00#8

/-- The RLE encoder as a function of bytes (R105): "(raw bytes) -> compressed bytes" (R68). -/
def encodedBytes (raw : List Byte) : List Byte := (emittedTokens raw.length raw).flatMap encode

/-- The first `n` bytes of a space. -/
def State.bytes (s : State) (sp : ByteSpace) (n : Nat) : List Byte := (List.range n).map (s.readByte sp)

/-- The compressed stream of the raw bytes in `EIN` (R105). -/
def State.encodedStream (s : State) : List Byte :=
  (emittedTokens s.eilen.toNat (s.bytes .ein s.eilen.toNat)).flatMap encode

/-- The tokens `RLE.DEC` interprets from `DIN` (R92). -/
def State.decodedTokens (s : State) : List Instr :=
  interpretedTokens s.dilen.toNat s.dsize.toNat (s.bytes .din s.dilen.toNat)

/-- The concatenation of their outputs, before cutting and padding (R92). -/
def State.decodedOutput (s : State) : List Byte := s.decodedTokens.flatMap outputOf

/-- The value a token carries; the count's token `MARK` and the commands carry none. -/
def tokenValue : Instr → Option Byte
  | .lit v => some v
  | .run _ v => some v
  | .run0 v => some v
  | .mark _ => none
  | .palLoad => none
  | .rleDec => none
  | .rleEnc => none
  | .cqNear => none
  | .cqPix => none
  | .clrErr => none
  | .cmdReserved _ => none

end Sys2Proof.Machine
end

