-- ==== Sys2Proof/Machine/HostReference.lean ====
section
/-! DEFINITION. The surrounding software of 45_host_reference.md, as functions over byte sequences and as scripts for the block.
"Nothing in this file is hardware": the step calls none of it (R3, log 23). -/

namespace Sys2Proof.Machine.HostReference

/-- The failures of the software (R171) that its pure functions return; `SizeMismatch` is the block's, and an I/O error
comes from outside. -/
inductive SoftError where
  | malformedHeader
  | badPaletteMarker
  /-- The bytes given end before the 128-byte header does; the document does not say what happens then (log 26). -/
  | headerCutShort
  /-- The bytes given do not hold the whole palette block; the document does not say what happens then (log 26). -/
  | blockCutShort
deriving DecidableEq, Repr

/-! ### Header codec (R155 to R159) -/

/-- The fields the document's table places (R155). -/
structure Header where
  xmin : BitVec 16
  ymin : BitVec 16
  xmax : BitVec 16
  ymax : BitVec 16
  bytesPerLine : BitVec 16
deriving DecidableEq, Repr

/-- "fixed 128-byte record" (R155). -/
def headerBytes : Nat := 128

/-- A 16-bit field at offset `o`, little-endian (R155). -/
def field16 (bytes : List Byte) (o : Nat) : BitVec 16 := bytes.getD (o + 1) 0#8 ++ bytes.getD o 0#8

/-- `parse` (R156): the manufacturer byte is the only check. Bytes that end before the record does have no header to read
(log 26). -/
def parse (bytes : List Byte) : Except SoftError Header :=
  if bytes.getD 0 0x0A#8 ≠ 0x0A#8 then .error .malformedHeader
  else if bytes.length < headerBytes then .error .headerCutShort
  else .ok ⟨field16 bytes 4, field16 bytes 6, field16 bytes 8, field16 bytes 10, field16 bytes 66⟩

/-- `width = xmax - xmin + 1` (R157). For `xmax < xmin` the document says nothing (N24): the formula's value stands, as an
integer (log 24). -/
def Header.width (h : Header) : Int := (h.xmax.toNat : Int) - h.xmin.toNat + 1

/-- `height = ymax - ymin + 1` (R157); for `ymax < ymin` as `width` (log 24). -/
def Header.height (h : Header) : Int := (h.ymax.toNat : Int) - h.ymin.toNat + 1

/-- "`height × bytesPerLine`" (R157, R163): the decoder's size, the value of `DSIZE`. A height under 0 counts as no rows
(N24, log 24). -/
def Header.decodedSize (h : Header) : Nat := h.height.toNat * h.bytesPerLine.toNat

/-- `width` rounded up to the next even number (R158, R166). -/
def bytesPerLine (width : Nat) : Nat := (width + 1) / 2 * 2

/-- The low byte of a number. -/
def lowByte (n : Nat) : Byte := BitVec.ofNat 8 n

/-- The byte above the low byte of a number. -/
def highByte (n : Nat) : Byte := BitVec.ofNat 8 (n / 256)

/-- The offsets of the three fields `build` sets and the document does not place (R158, N17): "the three offsets are its
arguments" (U10). -/
structure HeaderLayout where
  horizontalDpi : Nat
  verticalDpi : Nat
  paletteInfo : Nat
deriving DecidableEq, Repr

/-- The offsets the document's table places (R155). -/
def placedOffsets : List Nat := List.range 12 ++ [66, 67]

/-- The offsets of the bytes the three fields take. That a DPI field has two bytes and that a flag byte of 1 is enough is the
model's reading (log 25). -/
def HeaderLayout.offsets (l : HeaderLayout) : List Nat :=
  [l.horizontalDpi, l.horizontalDpi + 1, l.verticalDpi, l.verticalDpi + 1, l.paletteInfo]

/-- The three fields lie inside the record, clear of one another and of the placed fields. -/
abbrev HeaderLayout.Legal (l : HeaderLayout) : Prop :=
  (placedOffsets ++ l.offsets).Nodup ∧ ∀ o ∈ l.offsets, o < headerBytes

/-- A byte at an offset the table does not place (R158): the DPI fields hold the width and the height, the palette-info flag is
1, and everything else is the zero fill. -/
def unplacedByte (l : HeaderLayout) (width height o : Nat) : Byte :=
  if o = l.horizontalDpi then lowByte width
  else if o = l.horizontalDpi + 1 then highByte width
  else if o = l.verticalDpi then lowByte height
  else if o = l.verticalDpi + 1 then highByte height
  else if o = l.paletteInfo then 1#8
  else 0#8

/-- Byte `o` of the header `build` makes (R158). DESIGN CHOICE (log 24): for a width or height of 0, where `xmax = width - 1`
would be -1 (N24), `xmax` or `ymax` is 0; of a number that does not fit its 16-bit field (a width or height above 65536, a
`bytesPerLine` of 65536 at width 65535 or 65536, a DPI of 65536) the bits above 16 are dropped. The spec says neither. -/
def headerByte (l : HeaderLayout) (width height o : Nat) : Byte :=
  match o with
  | 0 => 0x0A#8
  | 1 => 5#8
  | 2 => 1#8
  | 3 => 8#8
  | 4 | 5 | 6 | 7 => 0#8
  | 8 => lowByte (width - 1)
  | 9 => highByte (width - 1)
  | 10 => lowByte (height - 1)
  | 11 => highByte (height - 1)
  | 66 => lowByte (bytesPerLine width)
  | 67 => highByte (bytesPerLine width)
  | _ => unplacedByte l width height o

/-- `build(width, height)` (R158): 128 bytes. Dimensions that are 0 or do not fit are the model's choice (log 24). -/
def build (l : HeaderLayout) (width height : Nat) : List Byte :=
  (List.range headerBytes).map (headerByte l width height)

/-! ### PCX palette block (R160 to R162) -/

/-- "769-byte trailing record" (R160). -/
def paletteBlockBytes : Nat := 1 + Config.palBytes

/-- The 768 bytes of a palette, "256 RGB triples in order" (R76). -/
def blobOf (pal : Palette) : List Byte := pal.toList.flatMap fun p => [p.r, p.g, p.b]

/-- `toPCXBlock` (R162): the marker byte 0x0C, then the triples. -/
def toPcxBlock (pal : Palette) : List Byte := 0x0C#8 :: blobOf pal

/-- Entry `i` of a blob (R76). -/
def blobTriple (blob : List Byte) (i : Nat) : Rgb :=
  ⟨blob.getD (3 * i) 0#8, blob.getD (3 * i + 1) 0#8, blob.getD (3 * i + 2) 0#8⟩

/-- `parsePCXBlock(bytes, offset)` (R161). -/
def parsePcxBlock (bytes : List Byte) (offset : Nat) : Except SoftError Palette :=
  match bytes.drop offset with
  | [] => .error .blockCutShort
  | marker :: blob =>
    if marker ≠ 0x0C#8 then .error .badPaletteMarker
    else if blob.length < Config.palBytes then .error .blockCutShort
    else .ok (Vector.ofFn fun i => blobTriple blob i.val)

/-! ### Buffers and the converter (R163 to R166) -/

/-- One raster pixel, "4-byte pixels (R, G, B, A)" (R75, R164). -/
structure Pixel where
  r : Byte
  g : Byte
  b : Byte
  a : Byte
deriving DecidableEq, Repr

/-- An RGBA raster, row-major, "dimensions `width × height`" (R164). -/
structure Raster where
  width : Nat
  height : Nat
  pixels : List Pixel
deriving DecidableEq, Repr

/-- The raster holds one pixel for each position. -/
abbrev Raster.Whole (r : Raster) : Prop := r.pixels.length = r.width * r.height

/-- The pixel at column `x` of row `y` (R164). Past the pixels given, which no whole raster has, (0, 0, 0, 0) (log 26). -/
def Raster.pixel (r : Raster) (x y : Nat) : Pixel := r.pixels.getD (y * r.width + x) ⟨0#8, 0#8, 0#8, 0#8⟩

/-- An indexed scanline buffer (R163): row-major, one palette index per byte, `stride` (the document's `bytesPerLine`) bytes a
row. On decode the stride is the header's, verbatim. -/
structure IndexedBuffer where
  height : Nat
  stride : Nat
  bytes : List Byte
deriving DecidableEq, Repr

/-- "byte sequence of length `height × bytesPerLine`" (R163). -/
abbrev IndexedBuffer.Whole (b : IndexedBuffer) : Prop := b.bytes.length = b.height * b.stride

/-- The index byte at `y*bytesPerLine + x` (R165). Past the bytes given, which a whole buffer of a stride not under the width has
none of, the reserved index (log 26). -/
def IndexedBuffer.index (b : IndexedBuffer) (x y : Nat) : Byte :=
  b.bytes.getD (y * b.stride + x) Config.transparentIndex

/-- The pixel of an index (R165): index 0 is (0, 0, 0, 0) whatever entry 0 holds. -/
def pixelOfIndex (pal : Palette) (i : Byte) : Pixel :=
  if i = Config.transparentIndex then ⟨0#8, 0#8, 0#8, 0#8⟩
  else ⟨(pal.entry i.toNat).r, (pal.entry i.toNat).g, (pal.entry i.toNat).b, 255#8⟩

/-- The index of a pixel (R166): one `CQ.PIX`. -/
def indexOfPixel (pal : Palette) (p : Pixel) : Byte := pixelIndex p.r p.g p.b p.a pal

/-- Converter, decode direction (R165): pad bytes beyond the width are not emitted. -/
def converterDecode (buffer : IndexedBuffer) (pal : Palette) (width : Nat) : Raster where
  width := width
  height := buffer.height
  pixels := (List.range buffer.height).flatMap fun y =>
    (List.range width).map fun x => pixelOfIndex pal (buffer.index x y)

/-- Converter, encode direction (R166): a pixel's index, or a zero pad byte; the stride is even and not under the width (R163). -/
def converterEncode (raster : Raster) (pal : Palette) : IndexedBuffer where
  height := raster.height
  stride := bytesPerLine raster.width
  bytes := (List.range raster.height).flatMap fun y =>
    (List.range (bytesPerLine raster.width)).map fun x =>
      if x < raster.width then indexOfPixel pal (raster.pixel x y) else 0#8

/-! ### Pipelines and file layout (R167 to R169) -/

/-- The slice of a file handed to the RLE decoder: the document does not say which (R169, N9), so it is an argument. -/
inductive Slice where
  | toEndOfFile
  | toPaletteBlock
deriving DecidableEq, Repr

/-- Where the palette block of a file begins: "always the final 769 bytes of the file" (R160, R169). -/
def paletteOffset (file : List Byte) : Nat := file.length - paletteBlockBytes

/-- The compressed bytes of a file (R169). -/
def compressedSlice (slice : Slice) (file : List Byte) : List Byte :=
  match slice with
  | .toEndOfFile => file.drop headerBytes
  | .toPaletteBlock => (file.take (paletteOffset file)).drop headerBytes

/-- The palette of a file, from its final 769 bytes (R160, R161). The document does not say what happens in a file shorter than
that (log 26). -/
def filePalette (file : List Byte) : Except SoftError Palette :=
  if file.length < paletteBlockBytes then .error .blockCutShort else parsePcxBlock file (paletteOffset file)

/-- The raw bytes of a file as a scanline buffer: the RLE codec with `DSIZE = height × bytesPerLine` of its header (R163, R167). -/
def decompress (h : Header) (compressed : List Byte) : IndexedBuffer where
  height := h.height.toNat
  stride := h.bytesPerLine.toNat
  bytes := decodedBytes h.decodedSize compressed

/-- The decode path (R167): header, RLE decode, palette, converter, in that order; the raster goes to the external library
(R170). A width under 0 counts as no columns (N24, log 24). -/
def decodePath (slice : Slice) (file : List Byte) : Except SoftError Raster :=
  match parse file with
  | .error e => .error e
  | .ok h =>
    match filePalette file with
    | .error e => .error e
    | .ok pal => .ok (converterDecode (decompress h (compressedSlice slice file)) pal h.width.toNat)

/-- The file layout (R169): header, compressed scanlines, palette block. -/
def fileBytes (l : HeaderLayout) (width height : Nat) (compressed : List Byte) (pal : Palette) : List Byte :=
  build l width height ++ compressed ++ toPcxBlock pal

/-- The encode path (R168): converter, RLE encode, header, palette, concatenated. -/
def encodePath (l : HeaderLayout) (raster : Raster) (pal : Palette) : List Byte :=
  fileBytes l raster.width raster.height (encodedBytes (converterEncode raster pal).bytes) pal

/-! ### How the host drives the block for the two paths (R174, D37) -/

/-- `PAL.LOAD` of a palette's blob. -/
def loadPaletteScript (pal : Palette) : List HostMove :=
  writeBytesLine .pin 0 (blobOf pal) ++ .write 0x03#8 (blobOf pal).length :: commandLine 0x01#8

/-- One `CQ.PIX`; the host reads `QIDX`. -/
def quantizeScript (p : Pixel) : List HostMove :=
  [.write 0x0C#8 p.r.toNat, .write 0x0D#8 p.g.toNat, .write 0x0E#8 p.b.toNat, .write 0x0F#8 p.a.toNat] ++
    commandLine 0x05#8 ++ [.read 0x10#8]

/-- `RLE.ENC` of a scanline buffer, the content of `EIN` (R163). The host reads `EOLEN`, then `EOUT[0..EOLEN-1]`, whose length is
that of the compressed stream. -/
def compressScript (buffer : IndexedBuffer) : List HostMove :=
  writeBytesLine .ein 0 buffer.bytes ++ .write 0x09#8 buffer.bytes.length :: commandLine 0x03#8 ++
    .read 0x0B#8 :: readBytesLine .eout 0 (encodedBytes buffer.bytes).length

/-- `RLE.DEC` with `DSIZE = height × bytesPerLine` (R163); the host reads `DOPOS`, then the buffer, the content of `DOUT`. -/
def decompressScript (h : Header) (compressed : List Byte) : List HostMove :=
  writeBytesLine .din 0 compressed ++ .write 0x04#8 compressed.length :: .write 0x05#8 h.decodedSize :: commandLine 0x02#8 ++
    .read 0x07#8 :: readBytesLine .dout 0 h.decodedSize

/-- The block's part of the encode path (R174): the palette once, the pixels in row-major order, then the buffer. -/
def encodePathScript (raster : Raster) (pal : Palette) : List HostMove :=
  loadPaletteScript pal ++ raster.pixels.flatMap quantizeScript ++ compressScript (converterEncode raster pal)

/-- The block's part of the decode path (R174): it "needs neither `PAL.LOAD` nor the quantizer". -/
def decodePathScript (slice : Slice) (file : List Byte) : Except SoftError (List HostMove) :=
  match parse file with
  | .error e => .error e
  | .ok h => .ok (decompressScript h (compressedSlice slice file))

end Sys2Proof.Machine.HostReference
end

