-- ==== Sys2Proof/Safety.lean ====
section
/-! DEFINITION. The terms the claims use: frames, the end of a command, candidates of the search, and the invariant that rules
out states no run reaches. -/

namespace Sys2Proof.Machine

/-! ### Frames -/

/-- `t` is `s` outside the registers numbered in `regs` (R10) and the bytes of the spaces in `spaces`. The palette file and the
flag bits are said apart. -/
structure Frame (s t : State) (regs : List Nat) (spaces : List ByteSpace) : Prop where
  cmd : t.cmd = s.cmd
  registers : ∀ num : Byte, num.toNat ∉ regs → t.registerValue num = s.registerValue num
  bytes : ∀ sp : ByteSpace, sp ∉ spaces → ∀ a : Nat, t.readByte sp a = s.readByte sp a
  params : t.params = s.params
  host : t.host = s.host
  replies : t.replies = s.replies
  epoch : t.epoch = s.epoch
  draws : t.draws = s.draws

/-- The bits of `STATUS` outside `bits` are kept. -/
def StatusKept (s t : State) (bits : List Nat) : Prop :=
  ∀ i : Nat, i ∉ bits → t.status.getLsbD i = s.status.getLsbD i

/-- The bits of `DFLAGS` outside `bits` are kept. -/
def FlagsKept (s t : State) (bits : List Nat) : Prop :=
  ∀ i : Nat, i ∉ bits → t.dflags.getLsbD i = s.dflags.getLsbD i

/-- A command is over (R212, R213). -/
structure CommandEnded (t : State) : Prop where
  idle : t.busy = false
  done : t.done = true
  whole : t.stage = .whole

/-- `t` is `s` after a command refused with `r`: the four items of R186 and nothing else. -/
structure RefusedWith (s t : State) (r : Result) : Prop where
  result : t.result = r.code
  sticky : t.esticky = true
  ended : CommandEnded t
  status : StatusKept s t [0, 1, 3]
  palette : t.pal = s.pal
  frame : Frame s t [0x01, 0x02] []

/-- What every token keeps, apart from the cursors, `DFLAGS` and `DOUT`, which each claim says itself. -/
structure TokenFrame (s t : State) : Prop where
  palette : t.pal = s.pal
  stage : t.stage = s.stage
  frame : Frame s t [0x06, 0x07, 0x08] [.dout]

/-- `i` is the candidate of least distance, and of those the one of lowest index (R129). -/
structure IsNearest (d : Nat → Nat) (i : Nat) : Prop where
  low : 1 ≤ i
  high : i ≤ 255
  least : ∀ j : Nat, 1 ≤ j → j ≤ 255 → d i ≤ d j
  first : ∀ j : Nat, 1 ≤ j → j < i → d i < d j

/-- The distance of candidate `i` from the pixel in `QR`, `QG`, `QB` (R127). -/
def State.candidateDistance (s : State) (i : Nat) : Nat := dist s.qr s.qg s.qb (s.pal.entry i)

/-- The host's next move, if any, is one that waits for an idle block: neither `rst` over a command in flight nor a poll of
`STATUS`. -/
abbrev State.HostWaits (s : State) : Prop := s.host.head? ≠ some .rstAtOnce ∧ s.host.head? ≠ some .pollStatus

/-! ### The invariant -/

/-- The extents meet the constraints of R5 and R40. -/
structure Params.Legal (p : Params) : Prop where
  pinLow : Config.palBytes ≤ p.pinCap
  pinHigh : p.pinCap ≤ 2 ^ AW
  dinHigh : p.dinCap ≤ 2 ^ AW - 1
  doutHigh : p.doutCap ≤ 2 ^ AW - 1
  einHigh : p.einCap ≤ 2 ^ AW - 1
  eoutHigh : p.eoutCap ≤ 2 ^ (AW + 1) - 2

/-- Every space is in canonical form and holds nothing outside its extent (R46). -/
def State.MemoryLegal (s : State) : Prop :=
  ∀ sp : ByteSpace, (s.mem sp).wf = true ∧ (s.mem sp).within (s.params.cap sp) = true

/-- Between two tokens of `RLE.DEC`: the lengths passed the check (R81) and no cursor passed its bound (R93 (b)). -/
structure State.DecoderLegal (s : State) : Prop where
  input : s.dilen.toNat ≤ s.params.dinCap
  output : s.dsize.toNat ≤ s.params.doutCap
  consumed : s.dipos.toNat ≤ s.dilen.toNat
  produced : s.dopos.toNat ≤ s.dsize.toNat

/-- Between two tokens of `RLE.ENC`: the lengths passed the check (R101), and the tokens so far took at most two bytes for each
input byte (R107 (b), R150). -/
structure State.EncoderLegal (s : State) : Prop where
  input : s.eilen.toNat ≤ s.params.einCap
  output : 2 * s.eilen.toNat ≤ s.params.eoutCap
  consumed : s.eipos.toNat ≤ s.eilen.toNat
  produced : s.eolen.toNat ≤ 2 * s.eipos.toNat

/-- What every step keeps. -/
structure State.Inv (s : State) : Prop where
  /-- The parameters are legal (R5). -/
  params : s.params.Legal
  /-- The byte spaces are legal (R46). -/
  memory : s.MemoryLegal
  /-- `STATUS[7:4]` reads as 0 (R12). -/
  statusReserved : s.status.toNat < 16
  /-- `DFLAGS[7:4]` reads as 0 (R17). -/
  flagsReserved : s.dflags.toNat < 16
  /-- Codes 0x05 to 0xFF are never produced (R70). -/
  resultCode : s.result.toNat ≤ 4
  /-- `DONE` says that no command is running (R12). -/
  doneIdle : s.done = true → s.busy = false
  /-- A refusal is not lost before `CLRERR` or reset (R188). -/
  refusalSticks : s.result ≠ Result.ok.code → s.esticky = true
  /-- Between two tokens a command is running. -/
  stageBusy : s.stage ≠ .whole → s.busy = true
  /-- Between two tokens of `RLE.DEC` its bounds hold. -/
  decoder : s.stage = .decoding → s.DecoderLegal
  /-- Between two tokens of `RLE.ENC` its bounds hold. -/
  encoder : s.stage = .encoding → s.EncoderLegal

end Sys2Proof.Machine
end

