-- ==== Sys2Proof/Certificates/Slice0/Obligations.lean ====
section
/-! DEFINITION. The statements about the model, for the provers. -/

open Sys2Proof Sys2Proof.Machine

/-! ### Encoding -/

/-- Every well-formed instruction, with every operand its encoding admits, decodes from its own bytes; and in a stream or list
that goes on, the rest is left untouched. Only `MARK` cannot be followed by anything (R72). -/
def Obligations.DecodeOfEncodeGivesInstruction : Prop :=
  ∀ i : Instr, i.wf = true →
    decode i.space (encode i) = .ok (i, []) ∧
    (∀ rest : List Byte, (∀ n, i ≠ .mark n) → decode i.space (encode i ++ rest) = .ok (i, rest))

/-- R66: the token decoder is total on every non-empty stream; what it reads is a well-formed token whose bytes are exactly the
bytes taken, and `MARK` is read only from the last byte. -/
def Obligations.EveryStreamDecodesToItsOwnToken : Prop :=
  ∀ bytes : List Byte, bytes ≠ [] →
    ∃ i rest, decodeToken bytes = .ok (i, rest) ∧ i.wf = true ∧ i.space = .token ∧
      encode i ++ rest = bytes ∧ (∀ n, i = .mark n → rest = [])

/-- R61, R62, R63: which control bytes open which token, when a byte follows. -/
def Obligations.ControlByteSelectsToken : Prop :=
  ∀ (c v : Byte) (rest : List Byte),
    (c.toNat < 0xC0 → decodeToken (c :: v :: rest) = .ok (.lit c, v :: rest)) ∧
    (c.toNat = 0xC0 → decodeToken (c :: v :: rest) = .ok (.run0 v, rest)) ∧
    (0xC1 ≤ c.toNat → decodeToken (c :: v :: rest) = .ok (.run (BitVec.ofNat 6 (c.toNat - 0xC0)) v, rest))

/-- R68, R69: the six command codes, and every other code reserved. -/
def Obligations.CommandCodes : Prop :=
  decodeCommand 0x01#8 = .palLoad ∧ decodeCommand 0x02#8 = .rleDec ∧ decodeCommand 0x03#8 = .rleEnc ∧
  decodeCommand 0x04#8 = .cqNear ∧ decodeCommand 0x05#8 = .cqPix ∧ decodeCommand 0x06#8 = .clrErr ∧
  ∀ c : Byte, (c.toNat = 0 ∨ 7 ≤ c.toNat) → decodeCommand c = .cmdReserved c

/-- A few words written out from the encodings of 30_encoding.md, the first token of the worked stream V17 and the last byte of
V21 among them. -/
def Obligations.SampleWordsDecode : Prop :=
  decodeToken [0xC5#8, 0x07#8] = .ok (.run 5#6 0x07#8, []) ∧
  decodeToken [0xC0#8, 0x55#8, 0x41#8] = .ok (.run0 0x55#8, [0x41#8]) ∧
  decodeToken [0xBF#8, 0xC0#8] = .ok (.lit 0xBF#8, [0xC0#8]) ∧
  decodeToken [0xC3#8] = .ok (.mark 3#6, []) ∧
  decode .command [0x05#8] = .ok (.cqPix, []) ∧
  decode .command [0x80#8] = .ok (.cmdReserved 0x80#8, [])

/-! ### Stepping -/

/-- R193: while `BUSY` is 1 at the start of a command, the step is `exec` of the command in `CMD`: of every command at
whole-command grain (R7), and of every command but `RLE.DEC` and `RLE.ENC`, which are then stepped by token, at token grain (the
grains are log 5). -/
def Obligations.StepRunsTheCommandInCmd : Prop :=
  ∀ (s : State) (i : Instr), s.busy = true → s.stage = .whole → s.HostWaits →
    (s.params.grain = .command ∨ (i ≠ .rleDec ∧ i ≠ .rleEnc)) →
    decode .command [s.cmd] = .ok (i, []) → step s = exec i s

/-- R83, R84: between two tokens of `RLE.DEC`, while the loop test holds, the step is `exec` of the token at `DIPOS`. -/
def Obligations.StepRunsTheTokenAtDipos : Prop :=
  ∀ (s : State) (i : Instr) (rest : List Byte), s.busy = true → s.stage = .decoding → s.decoderActive → s.HostWaits →
    decode .token s.tokenBytes = .ok (i, rest) → step s = exec i s

/-- R193: while `BUSY` is 0 the step is the host's next move, and with none left the block holds its state (R196; the hold is
log 18). Whether `BUSY` is 0 or 1, `STATUS` may be polled (R29, R205; as a step of its own, log 4): the read answers its value and changes
nothing. -/
def Obligations.StepPerformsTheNextHostMove : Prop :=
  ∀ s : State,
    (s.busy = false → s.host = [] → step s = .next s) ∧
    (s.busy = false → ∀ m rest, s.host = m :: rest → step s = hostMove m { s with host := rest }) ∧
    (∀ rest, s.host = .pollStatus :: rest →
      step s = .next { s with host := rest, replies := .reg 0x01#8 s.status.toNat :: s.replies })

/-- A word of the opcode table placed by `withFetchWord` is what the next step runs (log 17). -/
def Obligations.PlacedWordIsRunNext : Prop :=
  ∀ (s : State) (nbits w : Nat) (i : Instr), decodeTableWord nbits w = some i →
    step (s.withFetchWord nbits w) = exec i (s.withFetchWord nbits w)

/-- R84: `DecStep`, the body of the loop of `RLE.DEC`, is the meaning of the token that `DIN` holds at `DIPOS`. -/
def Obligations.DecStepIsTheMeaningOfItsToken : Prop :=
  ∀ s : State, s.decoderActive →
    ∃ i rest, decodeToken s.tokenBytes = .ok (i, rest) ∧ i.space = .token ∧ i.wf = true ∧
      i.length ≤ s.dilen.toNat - s.dipos.toNat ∧ exec i s = .next (decStep s)

/-! ### Tokens -/

/-- R85: a literal stores itself at `DOPOS` and moves both cursors by one; no flag changes. -/
def Obligations.LiteralStoresItself : Prop :=
  ∀ (s : State) (v : Byte), s.decoderActive →
    ∃ t, exec (.lit v) s = .next t ∧
      t.readByte .dout s.dopos.toNat = v ∧
      (∀ a, a ≠ s.dopos.toNat → t.readByte .dout a = s.readByte .dout a) ∧
      t.dopos.toNat = s.dopos.toNat + 1 ∧ t.dopos.toNat ≤ s.dsize.toNat ∧
      t.dipos.toNat = s.dipos.toNat + 1 ∧
      t.dflags = s.dflags ∧ TokenFrame s t

/-- R86: a run that fits stores its `n` copies, no flag changes. -/
def Obligations.RunThatFitsStoresItsCopies : Prop :=
  ∀ (s : State) (n : BitVec 6) (v : Byte), s.decoderActive → s.dipos.toNat + 1 ≠ s.dilen.toNat →
    n ≠ 0#6 → n.toNat ≤ s.dsize.toNat - s.dopos.toNat →
    ∃ t, exec (.run n v) s = .next t ∧
      (∀ a, s.dopos.toNat ≤ a → a < s.dopos.toNat + n.toNat → t.readByte .dout a = v) ∧
      (∀ a, (a < s.dopos.toNat ∨ s.dopos.toNat + n.toNat ≤ a) → t.readByte .dout a = s.readByte .dout a) ∧
      t.dopos.toNat = s.dopos.toNat + n.toNat ∧
      t.dipos.toNat = s.dipos.toNat + 2 ∧
      t.dflags = s.dflags ∧ TokenFrame s t

/-- R87: a run that does not fit fills the output exactly, drops the excess, sets `CLIP`, and the loop ends. -/
def Obligations.RunThatDoesNotFitIsClipped : Prop :=
  ∀ (s : State) (n : BitVec 6) (v : Byte), s.decoderActive → s.dipos.toNat + 1 ≠ s.dilen.toNat →
    s.dsize.toNat - s.dopos.toNat < n.toNat →
    ∃ t, exec (.run n v) s = .next t ∧
      (∀ a, s.dopos.toNat ≤ a → a < s.dsize.toNat → t.readByte .dout a = v) ∧
      (∀ a, (a < s.dopos.toNat ∨ s.dsize.toNat ≤ a) → t.readByte .dout a = s.readByte .dout a) ∧
      t.dopos = s.dsize ∧
      t.dipos.toNat = s.dipos.toNat + 2 ∧
      t.clip = true ∧ FlagsKept s t [1] ∧ ¬ t.decoderActive ∧ TokenFrame s t

/-- R88: a run of count 0 consumes its two bytes, stores nothing and sets `ZRUN` only. -/
def Obligations.ZeroRunStoresNothing : Prop :=
  ∀ (s : State) (v : Byte), s.decoderActive → s.dipos.toNat + 1 ≠ s.dilen.toNat →
    ∃ t, exec (.run0 v) s = .next t ∧
      (∀ a, t.readByte .dout a = s.readByte .dout a) ∧
      t.dopos = s.dopos ∧ t.dipos.toNat = s.dipos.toNat + 2 ∧
      t.zrun = true ∧ FlagsKept s t [2] ∧ TokenFrame s t

/-- R88, last part: an input of nothing but `RUN0` tokens is exhausted with nothing produced. -/
def Obligations.NothingButZeroRunsExhaustsInput : Prop :=
  ∀ (s : State) (k : Nat), ¬ s.decodeTooLong → 0 < s.dsize.toNat → s.dilen.toNat = 2 * k → 0 < k →
    (∀ j, j < k → s.readByte .din (2 * j) = 0xC0#8) →
    ∃ t, exec .rleDec s = .next t ∧ t.dipos = s.dilen ∧ t.dopos = 0#AW ∧ t.dflags = 0x05#8 ∧
      (∀ a, a < s.dsize.toNat → t.readByte .dout a = 0x00#8)

/-- R89: a run marker in the last input byte, in whichever form it is given, is consumed, stores nothing and sets `DANGLE`; nothing
past it is fetched, the input is then exhausted, and `TRUNC` follows at the end of the command. R89 speaks of `MARK n`, the form
the decoder reads there; that `exec` of `RUN n, v` and `RUN0 v` does the same there is the model's reading of R84 (log 15). -/
def Obligations.DanglingMarkerIsConsumed : Prop :=
  ∀ (s : State) (i : Instr), s.decoderActive → s.dipos.toNat + 1 = s.dilen.toNat →
    ((∃ n, i = .mark n) ∨ (∃ n v, i = .run n v) ∨ (∃ v, i = .run0 v)) →
    s.tokenBytes = [s.readByte .din s.dipos.toNat] ∧
    ∃ t, exec i s = .next t ∧
      (∀ a, t.readByte .dout a = s.readByte .dout a) ∧
      t.dopos = s.dopos ∧ t.dipos = s.dilen ∧
      t.dangle = true ∧ FlagsKept s t [3] ∧ ¬ t.decoderActive ∧ (decodeFinish t).trunc = true ∧ TokenFrame s t

/-- When the loop test of R83 fails, a token is not interpreted and changes nothing (the model's reading, log 13). -/
def Obligations.TokenOutsideTheLoopIsNotInterpreted : Prop :=
  ∀ (s : State) (i : Instr), i.space = .token → ¬ s.decoderActive → exec i s = .next s

/-! ### RLE.DEC -/

/-- R81: `RLE.DEC` is refused exactly when a length passes its extent, whatever `DIN` holds. -/
def Obligations.RleDecIsRefusedOnlyForLength : Prop :=
  ∀ s : State, ∃ t, exec .rleDec s = .next t ∧
    ((s.params.dinCap < s.dilen.toNat ∨ s.params.doutCap < s.dsize.toNat) → RefusedWith s t .badLength) ∧
    (¬ (s.params.dinCap < s.dilen.toNat ∨ s.params.doutCap < s.dsize.toNat) → t.result = Result.ok.code)

/-- R92: the end state of `RLE.DEC` completing `OK`: the tokens' output cut or zero-padded to `DSIZE`, the cursors, every flag, and
the frame; `DOUT` at `DSIZE` and above is kept (R82, R209). -/
def Obligations.RleDecEndState : Prop :=
  ∀ s : State, ¬ s.decodeTooLong →
    ∃ t, exec .rleDec s = .next t ∧
      (∀ a, a < s.dsize.toNat → t.readByte .dout a = (s.decodedOutput.take s.dsize.toNat).getD a 0x00#8) ∧
      (∀ a, s.dsize.toNat ≤ a → t.readByte .dout a = s.readByte .dout a) ∧
      t.dopos.toNat = (s.decodedOutput.take s.dsize.toNat).length ∧
      t.dipos.toNat = (s.decodedTokens.map Instr.length).sum ∧
      t.trunc = decide (s.decodedOutput.length < s.dsize.toNat) ∧
      t.clip = decide (s.dsize.toNat < s.decodedOutput.length) ∧
      (t.zrun = true ↔ ∃ v, Instr.run0 v ∈ s.decodedTokens) ∧
      (t.dangle = true ↔ ∃ n, Instr.mark n ∈ s.decodedTokens) ∧
      t.dflags.toNat < 16 ∧
      t.result = Result.ok.code ∧ CommandEnded t ∧ StatusKept s t [0, 1] ∧
      t.pal = s.pal ∧ Frame s t [0x01, 0x02, 0x06, 0x07, 0x08] [.dout]

/-- R93 (e): output, cursors and flags depend on `DILEN`, `DSIZE` and `DIN[0..DILEN-1]` alone. -/
def Obligations.RleDecDependsOnItsInputAlone : Prop :=
  ∀ s₁ s₂ t₁ t₂ : State, ¬ s₁.decodeTooLong → ¬ s₂.decodeTooLong →
    s₁.dilen = s₂.dilen → s₁.dsize = s₂.dsize →
    (∀ a, a < s₁.dilen.toNat → s₁.readByte .din a = s₂.readByte .din a) →
    exec .rleDec s₁ = .next t₁ → exec .rleDec s₂ = .next t₂ →
    t₁.dipos = t₂.dipos ∧ t₁.dopos = t₂.dopos ∧ t₁.dflags = t₂.dflags ∧
      ∀ a, a < s₁.dsize.toNat → t₁.readByte .dout a = t₂.readByte .dout a

/-- R93 (f): decoding the same input with a smaller `DSIZE`, not above the `DOPOS` reached, gives a prefix of the same output. -/
def Obligations.RleDecWithSmallerSizeGivesPrefix : Prop :=
  ∀ s₁ s₂ t₁ t₂ : State, ¬ s₁.decodeTooLong → ¬ s₂.decodeTooLong → s₁.dilen = s₂.dilen →
    (∀ a, a < s₁.dilen.toNat → s₁.readByte .din a = s₂.readByte .din a) →
    exec .rleDec s₁ = .next t₁ → exec .rleDec s₂ = .next t₂ → s₂.dsize.toNat ≤ t₁.dopos.toNat →
    t₂.dopos = s₂.dsize ∧ t₂.trunc = false ∧
      ∀ a, a < s₂.dsize.toNat → t₂.readByte .dout a = t₁.readByte .dout a

/-! ### RLE.ENC -/

/-- R101: `RLE.ENC` is refused exactly when the input or its worst-case output passes an extent, so never at the largest extents. -/
def Obligations.RleEncIsRefusedOnlyForLength : Prop :=
  ∀ s : State, ∃ t, exec .rleEnc s = .next t ∧
    ((s.params.einCap < s.eilen.toNat ∨ s.params.eoutCap < 2 * s.eilen.toNat) → RefusedWith s t .badLength) ∧
    (¬ (s.params.einCap < s.eilen.toNat ∨ s.params.eoutCap < 2 * s.eilen.toNat) → t.result = Result.ok.code) ∧
    ((s.params.einCap = 2 ^ AW - 1 ∧ s.params.eoutCap = 2 ^ (AW + 1) - 2) → t.result = Result.ok.code)

/-- R103: `RunLength(p)` is the largest `n` of 1 to 63 with `p + n <= EILEN` and the bytes `EIN[p..p+n-1]` equal. -/
def Obligations.RunLengthIsLargest : Prop :=
  ∀ (byteOf : Nat → Byte) (len p : Nat), p < len →
    1 ≤ runLength byteOf len p ∧ runLength byteOf len p ≤ 63 ∧ p + runLength byteOf len p ≤ len ∧
    (∀ j, j < runLength byteOf len p → byteOf (p + j) = byteOf p) ∧
    (∀ n, 1 ≤ n → n ≤ 63 → p + n ≤ len → (∀ j, j < n → byteOf (p + j) = byteOf p) → n ≤ runLength byteOf len p)

/-- R102, R104: one `EncStep`, the four cases of the emission rule: a run token `0xC0 | n`, `v`, or the byte alone when the run
is a single byte below 0xC0; cursors forward, nothing else changed. -/
def Obligations.EncStepEmitsOneToken : Prop :=
  ∀ (s : State) (v : Byte) (n : Nat), s.encoderActive → s.eolen.toNat + 1 < 2 * s.eilen.toNat →
    v = s.readByte .ein s.eipos.toNat → n = s.encoderRun →
    (encStep s).eipos.toNat = s.eipos.toNat + n ∧
    ((1 < n ∨ 0xC0 ≤ v.toNat) →
      (encStep s).readByte .eout s.eolen.toNat = 0xC0#8 ||| BitVec.ofNat 8 n ∧
      (encStep s).readByte .eout (s.eolen.toNat + 1) = v ∧
      (encStep s).eolen.toNat = s.eolen.toNat + 2 ∧
      ∀ a, (a < s.eolen.toNat ∨ s.eolen.toNat + 2 ≤ a) → (encStep s).readByte .eout a = s.readByte .eout a) ∧
    ((n = 1 ∧ v.toNat < 0xC0) →
      (encStep s).readByte .eout s.eolen.toNat = v ∧
      (encStep s).eolen.toNat = s.eolen.toNat + 1 ∧
      ∀ a, a ≠ s.eolen.toNat → (encStep s).readByte .eout a = s.readByte .eout a) ∧
    (encStep s).status = s.status ∧ (encStep s).pal = s.pal ∧ (encStep s).stage = s.stage ∧
    Frame s (encStep s) [0x0A, 0x0B] [.eout]

/-- R105: the end state of `RLE.ENC` completing `OK`: the whole input consumed, the stream of its tokens in `EOUT`, bytes above it
kept, and the frame. -/
def Obligations.RleEncEndState : Prop :=
  ∀ s : State, ¬ s.encodeTooLong →
    ∃ t, exec .rleEnc s = .next t ∧
      t.eipos = s.eilen ∧
      t.eolen.toNat = s.encodedStream.length ∧
      (∀ a, a < s.encodedStream.length → t.readByte .eout a = s.encodedStream.getD a 0x00#8) ∧
      (∀ a, s.encodedStream.length ≤ a → t.readByte .eout a = s.readByte .eout a) ∧
      t.result = Result.ok.code ∧ CommandEnded t ∧ StatusKept s t [0, 1] ∧
      t.pal = s.pal ∧ Frame s t [0x01, 0x02, 0x0A, 0x0B] [.eout]

/-- R107 (b): the size of the compressed stream. -/
def Obligations.EncoderOutputSize : Prop :=
  ∀ s t : State, ¬ s.encodeTooLong → exec .rleEnc s = .next t →
    t.eolen.toNat ≤ 2 * s.eilen.toNat ∧ s.eilen.toNat ≤ 63 * t.eolen.toNat

/-- R107 (c), R67: the stream in `EOUT` is a sequence of tokens that are literals below 0xC0 or runs of 1 to 63, a run of 1 only
for a byte of 0xC0 or more, and neighbours carry one value only after a full run of 63; their outputs are the raw bytes. -/
def Obligations.EncoderOutputIsCanonical : Prop :=
  ∀ s t : State, ¬ s.encodeTooLong → exec .rleEnc s = .next t →
    ∃ toks : List Instr,
      toks.flatMap encode = t.bytes .eout t.eolen.toNat ∧
      toks.flatMap outputOf = s.bytes .ein s.eilen.toNat ∧
      (∀ i, i ∈ toks → (∃ v : Byte, i = .lit v ∧ v.toNat < 0xC0) ∨
        (∃ (n : BitVec 6) (v : Byte), i = .run n v ∧ n ≠ 0#6 ∧ (n = 1#6 → 0xC0 ≤ v.toNat))) ∧
      (∀ (k : Nat) (i j : Instr), toks[k]? = some i → toks[k + 1]? = some j → tokenValue i = tokenValue j →
        ∃ v, i = .run 63#6 v)

/-- R107 (b), R73: an input of `k` equal bytes gives exactly the expansion of `REP k, v`. -/
def Obligations.EqualBytesEncodeAsRep : Prop :=
  ∀ (s t : State) (v : Byte), ¬ s.encodeTooLong → 1 ≤ s.eilen.toNat →
    (∀ a, a < s.eilen.toNat → s.readByte .ein a = v) → exec .rleEnc s = .next t →
    t.bytes .eout t.eolen.toNat = (pseudoRep s.eilen.toNat v).flatMap encode

/-- R106: the round-trip contract. `RLE.ENC` runs on `s`; `u` is any state whose `DIN` holds the stream it produced, with
`DILEN = EOLEN` and `DSIZE` the raw length; then `RLE.DEC` gives back the raw bytes, every cursor at its end, no flag set. -/
def Obligations.RoundTrip : Prop :=
  ∀ s t u : State, ¬ s.encodeTooLong → exec .rleEnc s = .next t →
    ¬ u.decodeTooLong → u.dilen.toNat = t.eolen.toNat → u.dsize = s.eilen →
    (∀ a, a < t.eolen.toNat → u.readByte .din a = t.readByte .eout a) →
    ∃ w, exec .rleDec u = .next w ∧
      (∀ a, a < s.eilen.toNat → w.readByte .dout a = s.readByte .ein a) ∧
      w.dopos = s.eilen ∧ w.dipos = u.dilen ∧ w.dflags = 0#8 ∧ w.result = Result.ok.code

/-- R110: decoding the encoder's output with any other size: the raw bytes cut to `DSIZE`, or followed by zeros with `TRUNC`. -/
def Obligations.RoundTripWithAnotherSize : Prop :=
  ∀ s t u : State, ¬ s.encodeTooLong → exec .rleEnc s = .next t →
    ¬ u.decodeTooLong → u.dilen.toNat = t.eolen.toNat →
    (∀ a, a < t.eolen.toNat → u.readByte .din a = t.readByte .eout a) →
    ∃ w, exec .rleDec u = .next w ∧
      (∀ a, a < u.dsize.toNat → w.readByte .dout a = if a < s.eilen.toNat then s.readByte .ein a else 0x00#8) ∧
      w.dopos.toNat = min u.dsize.toNat s.eilen.toNat ∧
      w.trunc = decide (s.eilen.toNat < u.dsize.toNat) ∧ w.zrun = false ∧ w.dangle = false

/-! ### PAL.LOAD -/

/-- R116: any blob length but 768 is refused with `SizeMismatch`; the palette and `PALV` stay as they were. -/
def Obligations.PalLoadRefusesOtherSizes : Prop :=
  ∀ s : State, s.plen.toNat ≠ 768 →
    ∃ t, exec .palLoad s = .next t ∧ RefusedWith s t .sizeMismatch ∧ t.pal = s.pal ∧ t.palv = s.palv

/-- R117, R120: a blob of 768 bytes loads all 256 entries, entry 0 included, in the order R, G, B, and sets `PALV`. -/
def Obligations.PalLoadLoadsTheTriples : Prop :=
  ∀ s : State, s.plen.toNat = 768 →
    ∃ t, exec .palLoad s = .next t ∧
      (∀ i, i < 256 → t.pal.entry i =
        ⟨s.readByte .pin (3 * i), s.readByte .pin (3 * i + 1), s.readByte .pin (3 * i + 2)⟩) ∧
      t.palv = true ∧ t.result = Result.ok.code ∧ CommandEnded t ∧ StatusKept s t [0, 1, 2] ∧
      Frame s t [0x01, 0x02] []

/-! ### CQ.NEAR and CQ.PIX -/

/-- R126: without a palette both commands are refused before anything else, a transparent pixel included. -/
def Obligations.QuantizerNeedsPalette : Prop :=
  ∀ s : State, s.palv = false →
    (∃ t, exec .cqNear s = .next t ∧ RefusedWith s t .paletteNotLoaded ∧ t.qidx = s.qidx) ∧
    (∃ t, exec .cqPix s = .next t ∧ RefusedWith s t .paletteNotLoaded ∧ t.qidx = s.qidx)

/-- R127, R136: the distance is the exact sum of squares, at most 195075, and 0 exactly for an equal entry. -/
def Obligations.DistanceIsExactSumOfSquares : Prop :=
  ∀ (r g b : Byte) (p : Rgb),
    ((dist r g b p : Nat) : Int) = ((r.toNat : Int) - p.r.toNat) ^ 2 + ((g.toNat : Int) - p.g.toNat) ^ 2
      + ((b.toNat : Int) - p.b.toNat) ^ 2 ∧
    dist r g b p ≤ 195075 ∧ (dist r g b p = 0 ↔ p = ⟨r, g, b⟩)

/-- R131, with the search in the loop-free form of R129 and R130, which the spec derives from R128: without a palette `CQ.NEAR` is refused; with one it gives the candidate of 1 to 255 of least distance,
the lowest index of equals, and nothing else changes. -/
def Obligations.CqNearFindsTheNearestCandidate : Prop :=
  ∀ s : State,
    (s.palv = false → ∃ t, exec .cqNear s = .next t ∧ RefusedWith s t .paletteNotLoaded) ∧
    (s.palv = true → ∃ t, exec .cqNear s = .next t ∧ IsNearest s.candidateDistance t.qidx.toNat ∧
      t.result = Result.ok.code ∧ CommandEnded t ∧ StatusKept s t [0, 1] ∧ t.pal = s.pal ∧
      Frame s t [0x01, 0x02, 0x10] [])

/-- R132, R133, with the search in the loop-free form of R129 and R130, derived from R128: without a palette `CQ.PIX` is refused; with one it gives 0 for alpha 0 to 128 whatever the colour, and for alpha
129 to 255 the nearest candidate, never 0. -/
def Obligations.CqPixAppliesTheAlphaThreshold : Prop :=
  ∀ s : State,
    (s.palv = false → ∃ t, exec .cqPix s = .next t ∧ RefusedWith s t .paletteNotLoaded) ∧
    (s.palv = true → ∃ t, exec .cqPix s = .next t ∧
      (s.qa.toNat ≤ 128 → t.qidx = 0#8) ∧
      (128 < s.qa.toNat → IsNearest s.candidateDistance t.qidx.toNat) ∧
      t.result = Result.ok.code ∧ CommandEnded t ∧ StatusKept s t [0, 1] ∧ t.pal = s.pal ∧
      Frame s t [0x01, 0x02, 0x10] [])

/-- R119, R137 (e): the index found is a function of the pixel and `PAL[1..255]`: neither entry 0, nor any other state, nor (for
`CQ.NEAR`) alpha has an influence. -/
def Obligations.QuantizerReadsPixelAndCandidatesAlone : Prop :=
  ∀ s₁ s₂ t₁ t₂ : State, s₁.palv = true → s₂.palv = true →
    s₁.qr = s₂.qr → s₁.qg = s₂.qg → s₁.qb = s₂.qb →
    (∀ i, 1 ≤ i → i ≤ 255 → s₁.pal.entry i = s₂.pal.entry i) →
    (exec .cqNear s₁ = .next t₁ → exec .cqNear s₂ = .next t₂ → t₁.qidx = t₂.qidx) ∧
    (s₁.qa = s₂.qa → exec .cqPix s₁ = .next t₁ → exec .cqPix s₂ = .next t₂ → t₁.qidx = t₂.qidx)

/-- R134: every comparator tree whose leaves are the candidates 1 to 255, each once and in any order and shape, gives at its root
the pair the ascending scan gives. -/
def Obligations.ComparatorTreeEqualsScan : Prop :=
  ∀ (d : Nat → Nat) (tree : CompareTree), tree.leaves.Perm (List.range' 1 255) →
    tree.reduce d = (nearestIndex d, d (nearestIndex d))

/-! ### CLRERR, reserved codes, results -/

/-- R145: `CLRERR` clears `ESTICKY`, completes `OK`, and touches nothing else. -/
def Obligations.ClrErrClearsStickyOnly : Prop :=
  ∀ s : State, ∃ t, exec .clrErr s = .next t ∧ t.esticky = false ∧ t.result = Result.ok.code ∧ CommandEnded t ∧
    StatusKept s t [0, 1, 3] ∧ t.pal = s.pal ∧ Frame s t [0x01, 0x02] []

/-- R146: a reserved code is refused with `BadCommand` (code 0x04), and the code written has no other effect. -/
def Obligations.ReservedCodeIsBadCommand : Prop :=
  ∀ (s : State) (c : Byte), ∃ t, exec (.cmdReserved c) s = .next t ∧ RefusedWith s t .badCommand ∧ t.result = 0x04#8

/-- R186: whichever command is refused, `RESULT` takes the code of its cause, `ESTICKY` is set, the command ends, and nothing else
changes. -/
def Obligations.RefusalChangesFourItems : Prop :=
  ∀ (s t : State) (i : Instr), i.space = .command → exec i s = .next t → t.result ≠ 0x00#8 →
    ∃ r : Result, r ≠ .ok ∧ RefusedWith s t r

/-- R187: a command completing `OK` writes `RESULT`, `BUSY`, `DONE`; only `CLRERR` changes `ESTICKY`. -/
def Obligations.OkKeepsStickyError : Prop :=
  ∀ (s t : State) (i : Instr), i.space = .command → exec i s = .next t → t.result = 0x00#8 →
    CommandEnded t ∧ (i ≠ .clrErr → t.esticky = s.esticky) ∧ (i = .clrErr → t.esticky = false)

/-- R180 to R185: which result each command ends with, and so which cause raises which: every command ends with exactly one. -/
def Obligations.ResultOfEachCommand : Prop :=
  ∀ (s : State) (i : Instr), i.space = .command → ∃ t, exec i s = .next t ∧ CommandEnded t ∧
    (t.result = 0x04#8 ↔ ∃ c, i = .cmdReserved c) ∧
    (t.result = 0x01#8 ↔ i = .palLoad ∧ s.plen.toNat ≠ 768) ∧
    (t.result = 0x02#8 ↔ (i = .cqNear ∨ i = .cqPix) ∧ s.palv = false) ∧
    (t.result = 0x03#8 ↔ (i = .rleDec ∧ s.decodeTooLong) ∨ (i = .rleEnc ∧ s.encodeTooLong)) ∧
    t.result.toNat ≤ 4

/-! ### Frames over all instructions -/

/-- R10, R15, R18, R19, R20, R14: no instruction writes `CMD`, an operand register or the script; `PLEN`, `DILEN`, `DSIZE`, `EILEN`,
`QR`, `QG`, `QB`, `QA` are "never written by the block". -/
def Obligations.NoInstructionWritesAnOperandRegister : Prop :=
  ∀ (s t : State) (i : Instr), exec i s = .next t →
    t.cmd = s.cmd ∧ t.plen = s.plen ∧ t.dilen = s.dilen ∧ t.dsize = s.dsize ∧ t.eilen = s.eilen ∧
    t.qr = s.qr ∧ t.qg = s.qg ∧ t.qb = s.qb ∧ t.qa = s.qa ∧
    t.params = s.params ∧ t.host = s.host ∧ t.replies = s.replies ∧ t.epoch = s.epoch ∧ t.draws = s.draws

/-- R41: which instruction writes which space, and nothing else does: only `RLE.DEC` and its tokens write `DOUT`, only `RLE.ENC`
writes `EOUT`, and none writes `PIN`, `DIN` or `EIN` (R51: the stream cannot change under the decoder). -/
def Obligations.EachInstructionWritesItsSpaceOnly : Prop :=
  ∀ (s t : State) (i : Instr), exec i s = .next t →
    (∀ a, t.readByte .pin a = s.readByte .pin a) ∧
    (∀ a, t.readByte .din a = s.readByte .din a) ∧
    (∀ a, t.readByte .ein a = s.readByte .ein a) ∧
    ((i.space = .command ∧ i ≠ .rleDec) → ∀ a, t.readByte .dout a = s.readByte .dout a) ∧
    (∀ a, s.dsize.toNat ≤ a → t.readByte .dout a = s.readByte .dout a) ∧
    (i ≠ .rleEnc → ∀ a, t.readByte .eout a = s.readByte .eout a) ∧
    (∀ a, 2 * s.eilen.toNat ≤ a → t.readByte .eout a = s.readByte .eout a)

/-- R22, R23: over every step of the machine, the palette changes only by a `PAL.LOAD` that completes `OK` or by the `rst` that the
step performs (an `rst` that waits for an idle block is performed only while `BUSY` is 0), and `PALV`
is cleared only by `rst`. -/
def Obligations.PaletteChangesOnlyByLoadOrRst : Prop :=
  ∀ s t : State, step s = .next t →
    (s.host.head? = some .rstAtOnce ∨ (s.host.head? = some .rst ∧ s.busy = false)) ∨
    (t.pal = s.pal ∧ t.palv = s.palv) ∨
    (s.busy = true ∧ decodeCommand s.cmd = .palLoad ∧ s.plen.toNat = 768 ∧ t.palv = true ∧ t.result = Result.ok.code)

/-! ### Host port and reset -/

/-- R10, R29, R11, R12 on an idle block: a write of an operand register, named by its number, stores exactly the value in the
register of that name and changes no other register; a write of a read-only register changes nothing; a write of `CMD` latches the
code, sets `BUSY`, clears `DONE`. -/
def Obligations.HostWriteOfARegister : Prop :=
  ∀ (s : State) (num : Byte) (w v : Nat), registerWidth num = some w → v < 2 ^ w →
    ∃ t, hostMove (.write num v) s = .next t ∧ t.pal = s.pal ∧
      (num.toNat ∈ [0x03, 0x04, 0x05, 0x09, 0x0C, 0x0D, 0x0E, 0x0F] →
        t.registerValue num = v ∧ t.stage = s.stage ∧ Frame s t [num.toNat] []) ∧
      (num.toNat = 0x03 → t.plen.toNat = v) ∧
      (num.toNat = 0x04 → t.dilen.toNat = v) ∧
      (num.toNat = 0x05 → t.dsize.toNat = v) ∧
      (num.toNat = 0x09 → t.eilen.toNat = v) ∧
      (num.toNat = 0x0C → t.qr.toNat = v) ∧
      (num.toNat = 0x0D → t.qg.toNat = v) ∧
      (num.toNat = 0x0E → t.qb.toNat = v) ∧
      (num.toNat = 0x0F → t.qa.toNat = v) ∧
      (num.toNat ∈ [0x01, 0x02, 0x06, 0x07, 0x08, 0x0A, 0x0B, 0x10] → t = s) ∧
      (num.toNat = 0 → t.cmd.toNat = v ∧ t.busy = true ∧ t.done = false ∧ t.stage = .whole ∧ StatusKept s t [0, 1] ∧
        (∀ k : Byte, k.toNat ≠ 1 → t.registerValue k = s.registerValue k) ∧
        ∀ sp a, t.readByte sp a = s.readByte sp a)

/-- R10, R29, R11: every register number 0x00 to 0x10 names the register R10 gives it, of the width R10 gives it; a read answers
that register's value, for `CMD` the next free value (log 11), and has no side effect on any register, byte or palette entry. -/
def Obligations.HostReadOfARegister : Prop :=
  ∀ (s : State) (num : Byte), num.toNat ≤ 0x10 →
    registerWidth num = some (if num.toNat = 0x0B then AW + 1
      else if num.toNat ∈ [0x03, 0x04, 0x05, 0x06, 0x07, 0x09, 0x0A] then AW else 8) ∧
    [s.registerValue 0x01#8, s.registerValue 0x02#8, s.registerValue 0x03#8, s.registerValue 0x04#8,
      s.registerValue 0x05#8, s.registerValue 0x06#8, s.registerValue 0x07#8, s.registerValue 0x08#8,
      s.registerValue 0x09#8, s.registerValue 0x0A#8, s.registerValue 0x0B#8, s.registerValue 0x0C#8,
      s.registerValue 0x0D#8, s.registerValue 0x0E#8, s.registerValue 0x0F#8, s.registerValue 0x10#8] =
    [s.status.toNat, s.result.toNat, s.plen.toNat, s.dilen.toNat,
      s.dsize.toNat, s.dipos.toNat, s.dopos.toNat, s.dflags.toNat,
      s.eilen.toNat, s.eipos.toNat, s.eolen.toNat, s.qr.toNat,
      s.qg.toNat, s.qb.toNat, s.qa.toNat, s.qidx.toNat] ∧
    ∃ t, hostMove (.read num) s = .next t ∧
      t.replies = .reg num (s.registerValue num) :: s.replies ∧
      (num.toNat = 0 → s.registerValue num = (Config.cmdReadback s.draws).toNat ∧ t.draws = s.draws + 1) ∧
      (num.toNat ≠ 0 → t.draws = s.draws) ∧
      t.cmd = s.cmd ∧ t.pal = s.pal ∧ t.stage = s.stage ∧
      (∀ k : Byte, k.toNat ≠ 0 → t.registerValue k = s.registerValue k) ∧
      ∀ sp a, t.readByte sp a = s.readByte sp a

/-- R31, R46, R29 (U7, U8): the moves the model refuses by name (log 12): a reserved register number, a byte outside the populated
extent, a value wider than its register. -/
def Obligations.HostMovesWithoutMeaningAreRefused : Prop :=
  ∀ s : State,
    (∀ num : Byte, 0x11 ≤ num.toNat → hostMove (.read num) s = .refused (.reservedRegister num) ∧
      ∀ v, hostMove (.write num v) s = .refused (.reservedRegister num)) ∧
    (∀ (num : Byte) (w v : Nat), registerWidth num = some w → 2 ^ w ≤ v →
      hostMove (.write num v) s = .refused (.valueTooWide num)) ∧
    (∀ (sp : ByteSpace) (a : Nat), s.params.cap sp ≤ a →
      hostMove (.readByte sp a) s = .refused (.outsideExtent sp a) ∧
      ∀ v, hostMove (.writeByte sp a v) s = .refused (.outsideExtent sp a))

/-- R40, R44: inside the extent, a byte written is the byte read; no other address, space, register or palette entry changes. A read
of any byte inside the extent, just written or not, answers that byte and changes no register, byte or palette entry. -/
def Obligations.HostByteWriteIsPlainStorage : Prop :=
  ∀ (s : State) (sp : ByteSpace) (a : Nat) (v : Byte), a < s.params.cap sp →
    (∃ t, hostMove (.writeByte sp a v) s = .next t ∧ t.readByte sp a = v ∧
      (∀ sp' a', (sp' ≠ sp ∨ a' ≠ a) → t.readByte sp' a' = s.readByte sp' a') ∧
      t.pal = s.pal ∧ t.stage = s.stage ∧ t.status = s.status ∧ Frame s t [] [sp] ∧
      ∃ u, hostMove (.readByte sp a) t = .next u ∧ u.replies = .byte sp a v :: s.replies ∧
        (∀ sp' a', u.readByte sp' a' = t.readByte sp' a')) ∧
    (∃ u, hostMove (.readByte sp a) s = .next u ∧ u.replies = .byte sp a (s.readByte sp a) :: s.replies ∧
      (∀ sp' a', u.readByte sp' a' = s.readByte sp' a') ∧
      (∀ k : Byte, u.registerValue k = s.registerValue k) ∧ u.cmd = s.cmd ∧
      u.pal = s.pal ∧ u.stage = s.stage ∧ u.params = s.params ∧ u.host = s.host ∧ u.epoch = s.epoch ∧ u.draws = s.draws)

/-- R201, R30: the control state after reset, and the idle block waits (its hold is log 18). -/
def Obligations.ResetControlState : Prop :=
  State.reset.status = 0#8 ∧ State.reset.result = Result.ok.code ∧
  State.reset.plen = 0#AW ∧ State.reset.dilen = 0#AW ∧ State.reset.dsize = 0#AW ∧ State.reset.eilen = 0#AW ∧
  State.reset.dipos = 0#AW ∧ State.reset.dopos = 0#AW ∧ State.reset.eipos = 0#AW ∧ State.reset.eolen = 0#(AW + 1) ∧
  State.reset.dflags = 0#8 ∧ step State.reset = .next State.reset

/-- R200, R203: `rst` may be raised at any time: a command in flight is abandoned, the control state takes its reset values, `PALV`
is 0, and every byte is unwritten again. -/
def Obligations.RstMayBeRaisedAtAnyTime : Prop :=
  ∀ (s : State) (rest : List HostMove),
    (s.host = .rstAtOnce :: rest ∨ (s.host = .rst :: rest ∧ s.busy = false)) →
    ∃ t, step s = .next t ∧ t.status = 0#8 ∧ t.result = Result.ok.code ∧
      t.plen = 0#AW ∧ t.dilen = 0#AW ∧ t.dsize = 0#AW ∧ t.eilen = 0#AW ∧
      t.dipos = 0#AW ∧ t.dopos = 0#AW ∧ t.eipos = 0#AW ∧ t.eolen = 0#(AW + 1) ∧ t.dflags = 0#8 ∧
      t.stage = .whole ∧ t.palv = false ∧
      (∀ sp a, t.readByte sp a = Config.powerOnByte (s.epoch + 1) sp.index a) ∧
      t.params = s.params ∧ t.host = rest ∧ t.replies = s.replies

/-! ### Invariant and refinement -/

/-- The invariant holds after reset. -/
def Obligations.ResetMeetsInvariant : Prop := State.reset.Inv

/-- Every step, of the host, of the block, or `rst`, keeps the invariant: spaces canonical and inside their extents (R46), reserved
bits 0 (R12, R17), result codes in range (R70), `DONE` against `BUSY` (R12), refusals not lost (R188), cursors in bounds (R93, R150). -/
def Obligations.EveryStepKeepsInvariant : Prop :=
  ∀ s t : State, s.Inv → step s = .next t → t.Inv

/-- No state faults: no token and no refusal is a fault (R66, R188), a byte nothing has written reads as a free value, where U3
prefers a fault (log 6, DESIGN CHOICE), and the model's one fault has no state that raises it (log 21, DESIGN CHOICE). -/
def Obligations.NoStepFaults : Prop := ∀ (s : State) (f : Fault), step s ≠ .fault f

/-- R213, R216: a busy block at whole-command grain ends its command in one step. -/
def Obligations.BusyBlockEndsItsCommand : Prop :=
  ∀ s : State, s.busy = true → s.stage = .whole → s.params.grain = .command → s.HostWaits →
    ∃ t, step s = .next t ∧ CommandEnded t

/-- R7, R84: `RLE.DEC` stepped token by token ends, within `DILEN + 2` steps, in exactly the state the whole command gives. The 2
counts the model's own steps that begin and end the command (log 5, DESIGN CHOICE). -/
def Obligations.TokenStepsOfDecodeEqualTheCommand : Prop :=
  ∀ s t : State, s.busy = true → s.stage = .whole → s.params.grain = .token → s.HostWaits →
    decodeCommand s.cmd = .rleDec → exec .rleDec s = .next t →
    ∃ k, 1 ≤ k ∧ k ≤ s.dilen.toNat + 2 ∧ core.run k s = .next t

/-- R7, R102: `RLE.ENC` stepped token by token ends, within `EILEN + 2` steps, in exactly the state the whole command gives. The 2
counts the model's own steps that begin and end the command (log 5, DESIGN CHOICE). -/
def Obligations.TokenStepsOfEncodeEqualTheCommand : Prop :=
  ∀ s t : State, s.busy = true → s.stage = .whole → s.params.grain = .token → s.HostWaits →
    decodeCommand s.cmd = .rleEnc → exec .rleEnc s = .next t →
    ∃ k, 1 ≤ k ∧ k ≤ s.eilen.toNat + 2 ∧ core.run k s = .next t

/-! ### The surrounding software (45_host_reference.md; not hardware, log 23) -/

/-- R159 with R155 to R158: `build` makes 128 bytes with the manufacturer, version, encoding, bits
per pixel, `xmin` and `ymin` R158 gives, and parsing them, with anything after them, gives the dimensions back and the
decoder's size `height × bytesPerLine`. With the three fields the document does not place at any legal offsets (log 25), the
DPI fields hold the width and the height, the palette-info flag is 1, and every byte of no field is 0. -/
def Obligations.HeaderRoundTrip : Prop :=
  ∀ (l : HostReference.HeaderLayout) (width height : Nat) (rest : List Byte),
    1 ≤ width → width ≤ 65536 → 1 ≤ height → height ≤ 65536 →
    (HostReference.build l width height).length = 128 ∧
    (∃ h, HostReference.parse (HostReference.build l width height ++ rest) = .ok h ∧
      h.width = width ∧ h.height = height ∧
      (width ≤ 65534 → h.bytesPerLine.toNat = HostReference.bytesPerLine width ∧
        h.decodedSize = height * HostReference.bytesPerLine width)) ∧
    (HostReference.build l width height).take 8 = [0x0A#8, 5#8, 1#8, 8#8, 0#8, 0#8, 0#8, 0#8] ∧
    (l.Legal →
      (width ≤ 65535 → (HostReference.field16 (HostReference.build l width height) l.horizontalDpi).toNat = width) ∧
      (height ≤ 65535 → (HostReference.field16 (HostReference.build l width height) l.verticalDpi).toNat = height) ∧
      (HostReference.build l width height)[l.paletteInfo]? = some 1#8 ∧
      ∀ o, o < 128 → o ∉ HostReference.placedOffsets → o ∉ l.offsets →
        (HostReference.build l width height)[o]? = some 0#8)

/-- R160 to R162: a palette block anywhere in a file parses back to its palette. -/
def Obligations.PaletteBlockRoundTrip : Prop :=
  ∀ (pal : Palette) (before after : List Byte),
    (HostReference.toPcxBlock pal).length = 769 ∧
    HostReference.parsePcxBlock (before ++ HostReference.toPcxBlock pal ++ after) before.length = .ok pal
end

