-- ==== Sys2Proof/Laws/Decode.lean ====
section
/-! SUPPORT. The fields of a control byte, and what the token decoder can answer. -/

namespace Sys2Proof

/-- The two forms of the marker test (R151): bits 7:6 both 1, or the byte at least 0xC0. -/
theorem isRunMarker_iff (c : Byte) : isRunMarker c = true ↔ 0xC0 ≤ c.toNat := by
  revert c; decide +kernel

/-- The two forms of the count (R65, R151). -/
theorem countField_toNat (c : Byte) : (countField c).toNat = c.toNat % 64 := by
  revert c; decide +kernel

@[simp] theorem isRunMarker_runControl (n : BitVec 6) : isRunMarker (runControl n) = true := by
  revert n; decide +kernel

@[simp] theorem countField_runControl (n : BitVec 6) : countField (runControl n) = n := by
  revert n; decide +kernel

/-- A marker byte is rebuilt from its count (R62, R65). -/
theorem runControl_countField (c : Byte) (h : isRunMarker c = true) : runControl (countField c) = c := by
  revert c; decide +kernel

/-- What the decoder can answer on a stream of one byte, or of more. -/
theorem decodeToken_cases {bytes rest : List Byte} {i : Instr} (h : decodeToken bytes = .ok (i, rest)) :
    (∃ c, bytes = [c] ∧ rest = [] ∧
      ((isRunMarker c = true ∧ i = .mark (countField c)) ∨ (isRunMarker c = false ∧ i = .lit c))) ∨
    (∃ c v tail, bytes = c :: v :: tail ∧
      ((isRunMarker c = true ∧ rest = tail ∧
          ((countField c = 0#6 ∧ i = .run0 v) ∨ (countField c ≠ 0#6 ∧ i = .run (countField c) v))) ∨
        (isRunMarker c = false ∧ rest = v :: tail ∧ i = .lit c))) := by
  match bytes, h with
  | [c], h =>
    by_cases hc : isRunMarker c = true
    · simp [decodeToken, hc] at h
      exact .inl ⟨c, rfl, h.2, .inl ⟨hc, h.1.symm⟩⟩
    · simp [decodeToken, hc] at h
      exact .inl ⟨c, rfl, h.2, .inr ⟨by simpa using hc, h.1.symm⟩⟩
  | c :: v :: tail, h =>
    by_cases hc : isRunMarker c = true
    · by_cases hn : countField c = 0#6
      · simp [decodeToken, hc, hn] at h
        exact .inr ⟨c, v, tail, rfl, .inl ⟨hc, h.2.symm, .inl ⟨hn, h.1.symm⟩⟩⟩
      · simp [decodeToken, hc, hn] at h
        exact .inr ⟨c, v, tail, rfl, .inl ⟨hc, h.2.symm, .inr ⟨hn, h.1.symm⟩⟩⟩
    · simp [decodeToken, hc] at h
      exact .inr ⟨c, v, tail, rfl, .inr ⟨by simpa using hc, h.2.symm, h.1.symm⟩⟩

end Sys2Proof
end

