-- ==== Sys2Proof/Laws/State.lean ====
section
/-! SUPPORT. What each field of the state is after each named update: one lemma per field, true by unfolding. -/

namespace Sys2Proof.Machine

/-! ### `State.start` -/

@[simp] theorem State.start_cmd (s : State) (c : Byte) : (s.start c).cmd = c := rfl
@[simp] theorem State.start_status (s : State) (c : Byte) : (s.start c).status = statusStarted s.status := rfl
@[simp] theorem State.start_result (s : State) (c : Byte) : (s.start c).result = s.result := rfl
@[simp] theorem State.start_plen (s : State) (c : Byte) : (s.start c).plen = s.plen := rfl
@[simp] theorem State.start_dilen (s : State) (c : Byte) : (s.start c).dilen = s.dilen := rfl
@[simp] theorem State.start_dsize (s : State) (c : Byte) : (s.start c).dsize = s.dsize := rfl
@[simp] theorem State.start_dipos (s : State) (c : Byte) : (s.start c).dipos = s.dipos := rfl
@[simp] theorem State.start_dopos (s : State) (c : Byte) : (s.start c).dopos = s.dopos := rfl
@[simp] theorem State.start_dflags (s : State) (c : Byte) : (s.start c).dflags = s.dflags := rfl
@[simp] theorem State.start_eilen (s : State) (c : Byte) : (s.start c).eilen = s.eilen := rfl
@[simp] theorem State.start_eipos (s : State) (c : Byte) : (s.start c).eipos = s.eipos := rfl
@[simp] theorem State.start_eolen (s : State) (c : Byte) : (s.start c).eolen = s.eolen := rfl
@[simp] theorem State.start_qr (s : State) (c : Byte) : (s.start c).qr = s.qr := rfl
@[simp] theorem State.start_qg (s : State) (c : Byte) : (s.start c).qg = s.qg := rfl
@[simp] theorem State.start_qb (s : State) (c : Byte) : (s.start c).qb = s.qb := rfl
@[simp] theorem State.start_qa (s : State) (c : Byte) : (s.start c).qa = s.qa := rfl
@[simp] theorem State.start_qidx (s : State) (c : Byte) : (s.start c).qidx = s.qidx := rfl
@[simp] theorem State.start_pal (s : State) (c : Byte) : (s.start c).pal = s.pal := rfl
@[simp] theorem State.start_pin (s : State) (c : Byte) : (s.start c).pin = s.pin := rfl
@[simp] theorem State.start_din (s : State) (c : Byte) : (s.start c).din = s.din := rfl
@[simp] theorem State.start_dout (s : State) (c : Byte) : (s.start c).dout = s.dout := rfl
@[simp] theorem State.start_ein (s : State) (c : Byte) : (s.start c).ein = s.ein := rfl
@[simp] theorem State.start_eout (s : State) (c : Byte) : (s.start c).eout = s.eout := rfl
@[simp] theorem State.start_params (s : State) (c : Byte) : (s.start c).params = s.params := rfl
@[simp] theorem State.start_stage (s : State) (c : Byte) : (s.start c).stage = .whole := rfl
@[simp] theorem State.start_host (s : State) (c : Byte) : (s.start c).host = s.host := rfl
@[simp] theorem State.start_replies (s : State) (c : Byte) : (s.start c).replies = s.replies := rfl
@[simp] theorem State.start_epoch (s : State) (c : Byte) : (s.start c).epoch = s.epoch := rfl
@[simp] theorem State.start_draws (s : State) (c : Byte) : (s.start c).draws = s.draws := rfl

/-! ### `State.complete` -/

@[simp] theorem State.complete_cmd (s : State) : s.complete.cmd = s.cmd := rfl
@[simp] theorem State.complete_status (s : State) : s.complete.status = statusEnded s.status := rfl
@[simp] theorem State.complete_result (s : State) : s.complete.result = Result.ok.code := rfl
@[simp] theorem State.complete_plen (s : State) : s.complete.plen = s.plen := rfl
@[simp] theorem State.complete_dilen (s : State) : s.complete.dilen = s.dilen := rfl
@[simp] theorem State.complete_dsize (s : State) : s.complete.dsize = s.dsize := rfl
@[simp] theorem State.complete_dipos (s : State) : s.complete.dipos = s.dipos := rfl
@[simp] theorem State.complete_dopos (s : State) : s.complete.dopos = s.dopos := rfl
@[simp] theorem State.complete_dflags (s : State) : s.complete.dflags = s.dflags := rfl
@[simp] theorem State.complete_eilen (s : State) : s.complete.eilen = s.eilen := rfl
@[simp] theorem State.complete_eipos (s : State) : s.complete.eipos = s.eipos := rfl
@[simp] theorem State.complete_eolen (s : State) : s.complete.eolen = s.eolen := rfl
@[simp] theorem State.complete_qr (s : State) : s.complete.qr = s.qr := rfl
@[simp] theorem State.complete_qg (s : State) : s.complete.qg = s.qg := rfl
@[simp] theorem State.complete_qb (s : State) : s.complete.qb = s.qb := rfl
@[simp] theorem State.complete_qa (s : State) : s.complete.qa = s.qa := rfl
@[simp] theorem State.complete_qidx (s : State) : s.complete.qidx = s.qidx := rfl
@[simp] theorem State.complete_pal (s : State) : s.complete.pal = s.pal := rfl
@[simp] theorem State.complete_pin (s : State) : s.complete.pin = s.pin := rfl
@[simp] theorem State.complete_din (s : State) : s.complete.din = s.din := rfl
@[simp] theorem State.complete_dout (s : State) : s.complete.dout = s.dout := rfl
@[simp] theorem State.complete_ein (s : State) : s.complete.ein = s.ein := rfl
@[simp] theorem State.complete_eout (s : State) : s.complete.eout = s.eout := rfl
@[simp] theorem State.complete_params (s : State) : s.complete.params = s.params := rfl
@[simp] theorem State.complete_stage (s : State) : s.complete.stage = .whole := rfl
@[simp] theorem State.complete_host (s : State) : s.complete.host = s.host := rfl
@[simp] theorem State.complete_replies (s : State) : s.complete.replies = s.replies := rfl
@[simp] theorem State.complete_epoch (s : State) : s.complete.epoch = s.epoch := rfl
@[simp] theorem State.complete_draws (s : State) : s.complete.draws = s.draws := rfl

/-! ### `State.raise` -/

@[simp] theorem State.raise_cmd (s : State) (r : Result) : (s.raise r).cmd = s.cmd := rfl
@[simp] theorem State.raise_status (s : State) (r : Result) : (s.raise r).status = statusEnded (statusStickyError s.status) := rfl
@[simp] theorem State.raise_result (s : State) (r : Result) : (s.raise r).result = r.code := rfl
@[simp] theorem State.raise_plen (s : State) (r : Result) : (s.raise r).plen = s.plen := rfl
@[simp] theorem State.raise_dilen (s : State) (r : Result) : (s.raise r).dilen = s.dilen := rfl
@[simp] theorem State.raise_dsize (s : State) (r : Result) : (s.raise r).dsize = s.dsize := rfl
@[simp] theorem State.raise_dipos (s : State) (r : Result) : (s.raise r).dipos = s.dipos := rfl
@[simp] theorem State.raise_dopos (s : State) (r : Result) : (s.raise r).dopos = s.dopos := rfl
@[simp] theorem State.raise_dflags (s : State) (r : Result) : (s.raise r).dflags = s.dflags := rfl
@[simp] theorem State.raise_eilen (s : State) (r : Result) : (s.raise r).eilen = s.eilen := rfl
@[simp] theorem State.raise_eipos (s : State) (r : Result) : (s.raise r).eipos = s.eipos := rfl
@[simp] theorem State.raise_eolen (s : State) (r : Result) : (s.raise r).eolen = s.eolen := rfl
@[simp] theorem State.raise_qr (s : State) (r : Result) : (s.raise r).qr = s.qr := rfl
@[simp] theorem State.raise_qg (s : State) (r : Result) : (s.raise r).qg = s.qg := rfl
@[simp] theorem State.raise_qb (s : State) (r : Result) : (s.raise r).qb = s.qb := rfl
@[simp] theorem State.raise_qa (s : State) (r : Result) : (s.raise r).qa = s.qa := rfl
@[simp] theorem State.raise_qidx (s : State) (r : Result) : (s.raise r).qidx = s.qidx := rfl
@[simp] theorem State.raise_pal (s : State) (r : Result) : (s.raise r).pal = s.pal := rfl
@[simp] theorem State.raise_pin (s : State) (r : Result) : (s.raise r).pin = s.pin := rfl
@[simp] theorem State.raise_din (s : State) (r : Result) : (s.raise r).din = s.din := rfl
@[simp] theorem State.raise_dout (s : State) (r : Result) : (s.raise r).dout = s.dout := rfl
@[simp] theorem State.raise_ein (s : State) (r : Result) : (s.raise r).ein = s.ein := rfl
@[simp] theorem State.raise_eout (s : State) (r : Result) : (s.raise r).eout = s.eout := rfl
@[simp] theorem State.raise_params (s : State) (r : Result) : (s.raise r).params = s.params := rfl
@[simp] theorem State.raise_stage (s : State) (r : Result) : (s.raise r).stage = .whole := rfl
@[simp] theorem State.raise_host (s : State) (r : Result) : (s.raise r).host = s.host := rfl
@[simp] theorem State.raise_replies (s : State) (r : Result) : (s.raise r).replies = s.replies := rfl
@[simp] theorem State.raise_epoch (s : State) (r : Result) : (s.raise r).epoch = s.epoch := rfl
@[simp] theorem State.raise_draws (s : State) (r : Result) : (s.raise r).draws = s.draws := rfl

/-! ### `literalEffect` -/

@[simp] theorem literalEffect_cmd (s : State) (v : Byte) : (literalEffect v s).cmd = s.cmd := rfl
@[simp] theorem literalEffect_status (s : State) (v : Byte) : (literalEffect v s).status = s.status := rfl
@[simp] theorem literalEffect_result (s : State) (v : Byte) : (literalEffect v s).result = s.result := rfl
@[simp] theorem literalEffect_plen (s : State) (v : Byte) : (literalEffect v s).plen = s.plen := rfl
@[simp] theorem literalEffect_dilen (s : State) (v : Byte) : (literalEffect v s).dilen = s.dilen := rfl
@[simp] theorem literalEffect_dsize (s : State) (v : Byte) : (literalEffect v s).dsize = s.dsize := rfl
@[simp] theorem literalEffect_dipos (s : State) (v : Byte) : (literalEffect v s).dipos = s.dipos + 1#AW := rfl
@[simp] theorem literalEffect_dopos (s : State) (v : Byte) : (literalEffect v s).dopos = s.dopos + 1#AW := rfl
@[simp] theorem literalEffect_dflags (s : State) (v : Byte) : (literalEffect v s).dflags = s.dflags := rfl
@[simp] theorem literalEffect_eilen (s : State) (v : Byte) : (literalEffect v s).eilen = s.eilen := rfl
@[simp] theorem literalEffect_eipos (s : State) (v : Byte) : (literalEffect v s).eipos = s.eipos := rfl
@[simp] theorem literalEffect_eolen (s : State) (v : Byte) : (literalEffect v s).eolen = s.eolen := rfl
@[simp] theorem literalEffect_qr (s : State) (v : Byte) : (literalEffect v s).qr = s.qr := rfl
@[simp] theorem literalEffect_qg (s : State) (v : Byte) : (literalEffect v s).qg = s.qg := rfl
@[simp] theorem literalEffect_qb (s : State) (v : Byte) : (literalEffect v s).qb = s.qb := rfl
@[simp] theorem literalEffect_qa (s : State) (v : Byte) : (literalEffect v s).qa = s.qa := rfl
@[simp] theorem literalEffect_qidx (s : State) (v : Byte) : (literalEffect v s).qidx = s.qidx := rfl
@[simp] theorem literalEffect_pal (s : State) (v : Byte) : (literalEffect v s).pal = s.pal := rfl
@[simp] theorem literalEffect_pin (s : State) (v : Byte) : (literalEffect v s).pin = s.pin := rfl
@[simp] theorem literalEffect_din (s : State) (v : Byte) : (literalEffect v s).din = s.din := rfl
@[simp] theorem literalEffect_dout (s : State) (v : Byte) : (literalEffect v s).dout = s.dout.put s.dopos.toNat v := rfl
@[simp] theorem literalEffect_ein (s : State) (v : Byte) : (literalEffect v s).ein = s.ein := rfl
@[simp] theorem literalEffect_eout (s : State) (v : Byte) : (literalEffect v s).eout = s.eout := rfl
@[simp] theorem literalEffect_params (s : State) (v : Byte) : (literalEffect v s).params = s.params := rfl
@[simp] theorem literalEffect_stage (s : State) (v : Byte) : (literalEffect v s).stage = s.stage := rfl
@[simp] theorem literalEffect_host (s : State) (v : Byte) : (literalEffect v s).host = s.host := rfl
@[simp] theorem literalEffect_replies (s : State) (v : Byte) : (literalEffect v s).replies = s.replies := rfl
@[simp] theorem literalEffect_epoch (s : State) (v : Byte) : (literalEffect v s).epoch = s.epoch := rfl
@[simp] theorem literalEffect_draws (s : State) (v : Byte) : (literalEffect v s).draws = s.draws := rfl

/-! ### `danglingEffect` -/

@[simp] theorem danglingEffect_cmd (s : State) : (danglingEffect s).cmd = s.cmd := rfl
@[simp] theorem danglingEffect_status (s : State) : (danglingEffect s).status = s.status := rfl
@[simp] theorem danglingEffect_result (s : State) : (danglingEffect s).result = s.result := rfl
@[simp] theorem danglingEffect_plen (s : State) : (danglingEffect s).plen = s.plen := rfl
@[simp] theorem danglingEffect_dilen (s : State) : (danglingEffect s).dilen = s.dilen := rfl
@[simp] theorem danglingEffect_dsize (s : State) : (danglingEffect s).dsize = s.dsize := rfl
@[simp] theorem danglingEffect_dipos (s : State) : (danglingEffect s).dipos = s.dipos + 1#AW := rfl
@[simp] theorem danglingEffect_dopos (s : State) : (danglingEffect s).dopos = s.dopos := rfl
@[simp] theorem danglingEffect_dflags (s : State) : (danglingEffect s).dflags = flagsAfterMark s.dflags := rfl
@[simp] theorem danglingEffect_eilen (s : State) : (danglingEffect s).eilen = s.eilen := rfl
@[simp] theorem danglingEffect_eipos (s : State) : (danglingEffect s).eipos = s.eipos := rfl
@[simp] theorem danglingEffect_eolen (s : State) : (danglingEffect s).eolen = s.eolen := rfl
@[simp] theorem danglingEffect_qr (s : State) : (danglingEffect s).qr = s.qr := rfl
@[simp] theorem danglingEffect_qg (s : State) : (danglingEffect s).qg = s.qg := rfl
@[simp] theorem danglingEffect_qb (s : State) : (danglingEffect s).qb = s.qb := rfl
@[simp] theorem danglingEffect_qa (s : State) : (danglingEffect s).qa = s.qa := rfl
@[simp] theorem danglingEffect_qidx (s : State) : (danglingEffect s).qidx = s.qidx := rfl
@[simp] theorem danglingEffect_pal (s : State) : (danglingEffect s).pal = s.pal := rfl
@[simp] theorem danglingEffect_pin (s : State) : (danglingEffect s).pin = s.pin := rfl
@[simp] theorem danglingEffect_din (s : State) : (danglingEffect s).din = s.din := rfl
@[simp] theorem danglingEffect_dout (s : State) : (danglingEffect s).dout = s.dout := rfl
@[simp] theorem danglingEffect_ein (s : State) : (danglingEffect s).ein = s.ein := rfl
@[simp] theorem danglingEffect_eout (s : State) : (danglingEffect s).eout = s.eout := rfl
@[simp] theorem danglingEffect_params (s : State) : (danglingEffect s).params = s.params := rfl
@[simp] theorem danglingEffect_stage (s : State) : (danglingEffect s).stage = s.stage := rfl
@[simp] theorem danglingEffect_host (s : State) : (danglingEffect s).host = s.host := rfl
@[simp] theorem danglingEffect_replies (s : State) : (danglingEffect s).replies = s.replies := rfl
@[simp] theorem danglingEffect_epoch (s : State) : (danglingEffect s).epoch = s.epoch := rfl
@[simp] theorem danglingEffect_draws (s : State) : (danglingEffect s).draws = s.draws := rfl

/-! ### `runEffect` -/

@[simp] theorem runEffect_cmd (s : State) (n : Nat) (v : Byte) : (runEffect n v s).cmd = s.cmd := rfl
@[simp] theorem runEffect_status (s : State) (n : Nat) (v : Byte) : (runEffect n v s).status = s.status := rfl
@[simp] theorem runEffect_result (s : State) (n : Nat) (v : Byte) : (runEffect n v s).result = s.result := rfl
@[simp] theorem runEffect_plen (s : State) (n : Nat) (v : Byte) : (runEffect n v s).plen = s.plen := rfl
@[simp] theorem runEffect_dilen (s : State) (n : Nat) (v : Byte) : (runEffect n v s).dilen = s.dilen := rfl
@[simp] theorem runEffect_dsize (s : State) (n : Nat) (v : Byte) : (runEffect n v s).dsize = s.dsize := rfl
@[simp] theorem runEffect_dipos (s : State) (n : Nat) (v : Byte) : (runEffect n v s).dipos = s.dipos + 2#AW := rfl
@[simp] theorem runEffect_dopos (s : State) (n : Nat) (v : Byte) : (runEffect n v s).dopos = s.dopos + BitVec.ofNat AW (min n s.outputRoom) := rfl
@[simp] theorem runEffect_dflags (s : State) (n : Nat) (v : Byte) : (runEffect n v s).dflags = flagsAfterRun s.dflags n (min n s.outputRoom) := rfl
@[simp] theorem runEffect_eilen (s : State) (n : Nat) (v : Byte) : (runEffect n v s).eilen = s.eilen := rfl
@[simp] theorem runEffect_eipos (s : State) (n : Nat) (v : Byte) : (runEffect n v s).eipos = s.eipos := rfl
@[simp] theorem runEffect_eolen (s : State) (n : Nat) (v : Byte) : (runEffect n v s).eolen = s.eolen := rfl
@[simp] theorem runEffect_qr (s : State) (n : Nat) (v : Byte) : (runEffect n v s).qr = s.qr := rfl
@[simp] theorem runEffect_qg (s : State) (n : Nat) (v : Byte) : (runEffect n v s).qg = s.qg := rfl
@[simp] theorem runEffect_qb (s : State) (n : Nat) (v : Byte) : (runEffect n v s).qb = s.qb := rfl
@[simp] theorem runEffect_qa (s : State) (n : Nat) (v : Byte) : (runEffect n v s).qa = s.qa := rfl
@[simp] theorem runEffect_qidx (s : State) (n : Nat) (v : Byte) : (runEffect n v s).qidx = s.qidx := rfl
@[simp] theorem runEffect_pal (s : State) (n : Nat) (v : Byte) : (runEffect n v s).pal = s.pal := rfl
@[simp] theorem runEffect_pin (s : State) (n : Nat) (v : Byte) : (runEffect n v s).pin = s.pin := rfl
@[simp] theorem runEffect_din (s : State) (n : Nat) (v : Byte) : (runEffect n v s).din = s.din := rfl
@[simp] theorem runEffect_dout (s : State) (n : Nat) (v : Byte) : (runEffect n v s).dout = s.dout.fill s.dopos.toNat (min n s.outputRoom) v := rfl
@[simp] theorem runEffect_ein (s : State) (n : Nat) (v : Byte) : (runEffect n v s).ein = s.ein := rfl
@[simp] theorem runEffect_eout (s : State) (n : Nat) (v : Byte) : (runEffect n v s).eout = s.eout := rfl
@[simp] theorem runEffect_params (s : State) (n : Nat) (v : Byte) : (runEffect n v s).params = s.params := rfl
@[simp] theorem runEffect_stage (s : State) (n : Nat) (v : Byte) : (runEffect n v s).stage = s.stage := rfl
@[simp] theorem runEffect_host (s : State) (n : Nat) (v : Byte) : (runEffect n v s).host = s.host := rfl
@[simp] theorem runEffect_replies (s : State) (n : Nat) (v : Byte) : (runEffect n v s).replies = s.replies := rfl
@[simp] theorem runEffect_epoch (s : State) (n : Nat) (v : Byte) : (runEffect n v s).epoch = s.epoch := rfl
@[simp] theorem runEffect_draws (s : State) (n : Nat) (v : Byte) : (runEffect n v s).draws = s.draws := rfl

/-! ### `decodeStart` -/

@[simp] theorem decodeStart_cmd (s : State) : (decodeStart s).cmd = s.cmd := rfl
@[simp] theorem decodeStart_status (s : State) : (decodeStart s).status = s.status := rfl
@[simp] theorem decodeStart_result (s : State) : (decodeStart s).result = s.result := rfl
@[simp] theorem decodeStart_plen (s : State) : (decodeStart s).plen = s.plen := rfl
@[simp] theorem decodeStart_dilen (s : State) : (decodeStart s).dilen = s.dilen := rfl
@[simp] theorem decodeStart_dsize (s : State) : (decodeStart s).dsize = s.dsize := rfl
@[simp] theorem decodeStart_dipos (s : State) : (decodeStart s).dipos = 0#AW := rfl
@[simp] theorem decodeStart_dopos (s : State) : (decodeStart s).dopos = 0#AW := rfl
@[simp] theorem decodeStart_dflags (s : State) : (decodeStart s).dflags = 0#8 := rfl
@[simp] theorem decodeStart_eilen (s : State) : (decodeStart s).eilen = s.eilen := rfl
@[simp] theorem decodeStart_eipos (s : State) : (decodeStart s).eipos = s.eipos := rfl
@[simp] theorem decodeStart_eolen (s : State) : (decodeStart s).eolen = s.eolen := rfl
@[simp] theorem decodeStart_qr (s : State) : (decodeStart s).qr = s.qr := rfl
@[simp] theorem decodeStart_qg (s : State) : (decodeStart s).qg = s.qg := rfl
@[simp] theorem decodeStart_qb (s : State) : (decodeStart s).qb = s.qb := rfl
@[simp] theorem decodeStart_qa (s : State) : (decodeStart s).qa = s.qa := rfl
@[simp] theorem decodeStart_qidx (s : State) : (decodeStart s).qidx = s.qidx := rfl
@[simp] theorem decodeStart_pal (s : State) : (decodeStart s).pal = s.pal := rfl
@[simp] theorem decodeStart_pin (s : State) : (decodeStart s).pin = s.pin := rfl
@[simp] theorem decodeStart_din (s : State) : (decodeStart s).din = s.din := rfl
@[simp] theorem decodeStart_dout (s : State) : (decodeStart s).dout = s.dout.fill 0 s.dsize.toNat 0x00#8 := rfl
@[simp] theorem decodeStart_ein (s : State) : (decodeStart s).ein = s.ein := rfl
@[simp] theorem decodeStart_eout (s : State) : (decodeStart s).eout = s.eout := rfl
@[simp] theorem decodeStart_params (s : State) : (decodeStart s).params = s.params := rfl
@[simp] theorem decodeStart_stage (s : State) : (decodeStart s).stage = s.stage := rfl
@[simp] theorem decodeStart_host (s : State) : (decodeStart s).host = s.host := rfl
@[simp] theorem decodeStart_replies (s : State) : (decodeStart s).replies = s.replies := rfl
@[simp] theorem decodeStart_epoch (s : State) : (decodeStart s).epoch = s.epoch := rfl
@[simp] theorem decodeStart_draws (s : State) : (decodeStart s).draws = s.draws := rfl

/-! ### `encodeStart` -/

@[simp] theorem encodeStart_cmd (s : State) : (encodeStart s).cmd = s.cmd := rfl
@[simp] theorem encodeStart_status (s : State) : (encodeStart s).status = s.status := rfl
@[simp] theorem encodeStart_result (s : State) : (encodeStart s).result = s.result := rfl
@[simp] theorem encodeStart_plen (s : State) : (encodeStart s).plen = s.plen := rfl
@[simp] theorem encodeStart_dilen (s : State) : (encodeStart s).dilen = s.dilen := rfl
@[simp] theorem encodeStart_dsize (s : State) : (encodeStart s).dsize = s.dsize := rfl
@[simp] theorem encodeStart_dipos (s : State) : (encodeStart s).dipos = s.dipos := rfl
@[simp] theorem encodeStart_dopos (s : State) : (encodeStart s).dopos = s.dopos := rfl
@[simp] theorem encodeStart_dflags (s : State) : (encodeStart s).dflags = s.dflags := rfl
@[simp] theorem encodeStart_eilen (s : State) : (encodeStart s).eilen = s.eilen := rfl
@[simp] theorem encodeStart_eipos (s : State) : (encodeStart s).eipos = 0#AW := rfl
@[simp] theorem encodeStart_eolen (s : State) : (encodeStart s).eolen = 0#(AW + 1) := rfl
@[simp] theorem encodeStart_qr (s : State) : (encodeStart s).qr = s.qr := rfl
@[simp] theorem encodeStart_qg (s : State) : (encodeStart s).qg = s.qg := rfl
@[simp] theorem encodeStart_qb (s : State) : (encodeStart s).qb = s.qb := rfl
@[simp] theorem encodeStart_qa (s : State) : (encodeStart s).qa = s.qa := rfl
@[simp] theorem encodeStart_qidx (s : State) : (encodeStart s).qidx = s.qidx := rfl
@[simp] theorem encodeStart_pal (s : State) : (encodeStart s).pal = s.pal := rfl
@[simp] theorem encodeStart_pin (s : State) : (encodeStart s).pin = s.pin := rfl
@[simp] theorem encodeStart_din (s : State) : (encodeStart s).din = s.din := rfl
@[simp] theorem encodeStart_dout (s : State) : (encodeStart s).dout = s.dout := rfl
@[simp] theorem encodeStart_ein (s : State) : (encodeStart s).ein = s.ein := rfl
@[simp] theorem encodeStart_eout (s : State) : (encodeStart s).eout = s.eout := rfl
@[simp] theorem encodeStart_params (s : State) : (encodeStart s).params = s.params := rfl
@[simp] theorem encodeStart_stage (s : State) : (encodeStart s).stage = s.stage := rfl
@[simp] theorem encodeStart_host (s : State) : (encodeStart s).host = s.host := rfl
@[simp] theorem encodeStart_replies (s : State) : (encodeStart s).replies = s.replies := rfl
@[simp] theorem encodeStart_epoch (s : State) : (encodeStart s).epoch = s.epoch := rfl
@[simp] theorem encodeStart_draws (s : State) : (encodeStart s).draws = s.draws := rfl

/-! ### `encStep` -/

@[simp] theorem encStep_cmd (s : State) : (encStep s).cmd = s.cmd := rfl
@[simp] theorem encStep_status (s : State) : (encStep s).status = s.status := rfl
@[simp] theorem encStep_result (s : State) : (encStep s).result = s.result := rfl
@[simp] theorem encStep_plen (s : State) : (encStep s).plen = s.plen := rfl
@[simp] theorem encStep_dilen (s : State) : (encStep s).dilen = s.dilen := rfl
@[simp] theorem encStep_dsize (s : State) : (encStep s).dsize = s.dsize := rfl
@[simp] theorem encStep_dipos (s : State) : (encStep s).dipos = s.dipos := rfl
@[simp] theorem encStep_dopos (s : State) : (encStep s).dopos = s.dopos := rfl
@[simp] theorem encStep_dflags (s : State) : (encStep s).dflags = s.dflags := rfl
@[simp] theorem encStep_eilen (s : State) : (encStep s).eilen = s.eilen := rfl
@[simp] theorem encStep_eipos (s : State) : (encStep s).eipos = s.eipos + BitVec.ofNat AW s.encoderRun := rfl
@[simp] theorem encStep_eolen (s : State) : (encStep s).eolen = s.eolen + BitVec.ofNat (AW + 1) (encode s.encoderToken).length := rfl
@[simp] theorem encStep_qr (s : State) : (encStep s).qr = s.qr := rfl
@[simp] theorem encStep_qg (s : State) : (encStep s).qg = s.qg := rfl
@[simp] theorem encStep_qb (s : State) : (encStep s).qb = s.qb := rfl
@[simp] theorem encStep_qa (s : State) : (encStep s).qa = s.qa := rfl
@[simp] theorem encStep_qidx (s : State) : (encStep s).qidx = s.qidx := rfl
@[simp] theorem encStep_pal (s : State) : (encStep s).pal = s.pal := rfl
@[simp] theorem encStep_pin (s : State) : (encStep s).pin = s.pin := rfl
@[simp] theorem encStep_din (s : State) : (encStep s).din = s.din := rfl
@[simp] theorem encStep_dout (s : State) : (encStep s).dout = s.dout := rfl
@[simp] theorem encStep_ein (s : State) : (encStep s).ein = s.ein := rfl
@[simp] theorem encStep_eout (s : State) : (encStep s).eout = s.eout.putAll s.eolen.toNat (encode s.encoderToken) := rfl
@[simp] theorem encStep_params (s : State) : (encStep s).params = s.params := rfl
@[simp] theorem encStep_stage (s : State) : (encStep s).stage = s.stage := rfl
@[simp] theorem encStep_host (s : State) : (encStep s).host = s.host := rfl
@[simp] theorem encStep_replies (s : State) : (encStep s).replies = s.replies := rfl
@[simp] theorem encStep_epoch (s : State) : (encStep s).epoch = s.epoch := rfl
@[simp] theorem encStep_draws (s : State) : (encStep s).draws = s.draws := rfl

/-! ### `State.reply` -/

@[simp] theorem State.reply_cmd (s : State) (r : HostReply) : (s.reply r).cmd = s.cmd := rfl
@[simp] theorem State.reply_status (s : State) (r : HostReply) : (s.reply r).status = s.status := rfl
@[simp] theorem State.reply_result (s : State) (r : HostReply) : (s.reply r).result = s.result := rfl
@[simp] theorem State.reply_plen (s : State) (r : HostReply) : (s.reply r).plen = s.plen := rfl
@[simp] theorem State.reply_dilen (s : State) (r : HostReply) : (s.reply r).dilen = s.dilen := rfl
@[simp] theorem State.reply_dsize (s : State) (r : HostReply) : (s.reply r).dsize = s.dsize := rfl
@[simp] theorem State.reply_dipos (s : State) (r : HostReply) : (s.reply r).dipos = s.dipos := rfl
@[simp] theorem State.reply_dopos (s : State) (r : HostReply) : (s.reply r).dopos = s.dopos := rfl
@[simp] theorem State.reply_dflags (s : State) (r : HostReply) : (s.reply r).dflags = s.dflags := rfl
@[simp] theorem State.reply_eilen (s : State) (r : HostReply) : (s.reply r).eilen = s.eilen := rfl
@[simp] theorem State.reply_eipos (s : State) (r : HostReply) : (s.reply r).eipos = s.eipos := rfl
@[simp] theorem State.reply_eolen (s : State) (r : HostReply) : (s.reply r).eolen = s.eolen := rfl
@[simp] theorem State.reply_qr (s : State) (r : HostReply) : (s.reply r).qr = s.qr := rfl
@[simp] theorem State.reply_qg (s : State) (r : HostReply) : (s.reply r).qg = s.qg := rfl
@[simp] theorem State.reply_qb (s : State) (r : HostReply) : (s.reply r).qb = s.qb := rfl
@[simp] theorem State.reply_qa (s : State) (r : HostReply) : (s.reply r).qa = s.qa := rfl
@[simp] theorem State.reply_qidx (s : State) (r : HostReply) : (s.reply r).qidx = s.qidx := rfl
@[simp] theorem State.reply_pal (s : State) (r : HostReply) : (s.reply r).pal = s.pal := rfl
@[simp] theorem State.reply_pin (s : State) (r : HostReply) : (s.reply r).pin = s.pin := rfl
@[simp] theorem State.reply_din (s : State) (r : HostReply) : (s.reply r).din = s.din := rfl
@[simp] theorem State.reply_dout (s : State) (r : HostReply) : (s.reply r).dout = s.dout := rfl
@[simp] theorem State.reply_ein (s : State) (r : HostReply) : (s.reply r).ein = s.ein := rfl
@[simp] theorem State.reply_eout (s : State) (r : HostReply) : (s.reply r).eout = s.eout := rfl
@[simp] theorem State.reply_params (s : State) (r : HostReply) : (s.reply r).params = s.params := rfl
@[simp] theorem State.reply_stage (s : State) (r : HostReply) : (s.reply r).stage = s.stage := rfl
@[simp] theorem State.reply_host (s : State) (r : HostReply) : (s.reply r).host = s.host := rfl
@[simp] theorem State.reply_replies (s : State) (r : HostReply) : (s.reply r).replies = r :: s.replies := rfl
@[simp] theorem State.reply_epoch (s : State) (r : HostReply) : (s.reply r).epoch = s.epoch := rfl
@[simp] theorem State.reply_draws (s : State) (r : HostReply) : (s.reply r).draws = s.draws := rfl

/-! ### `State.polled` -/

@[simp] theorem State.polled_cmd (s : State) : s.polled.cmd = s.cmd := rfl
@[simp] theorem State.polled_status (s : State) : s.polled.status = s.status := rfl
@[simp] theorem State.polled_result (s : State) : s.polled.result = s.result := rfl
@[simp] theorem State.polled_plen (s : State) : s.polled.plen = s.plen := rfl
@[simp] theorem State.polled_dilen (s : State) : s.polled.dilen = s.dilen := rfl
@[simp] theorem State.polled_dsize (s : State) : s.polled.dsize = s.dsize := rfl
@[simp] theorem State.polled_dipos (s : State) : s.polled.dipos = s.dipos := rfl
@[simp] theorem State.polled_dopos (s : State) : s.polled.dopos = s.dopos := rfl
@[simp] theorem State.polled_dflags (s : State) : s.polled.dflags = s.dflags := rfl
@[simp] theorem State.polled_eilen (s : State) : s.polled.eilen = s.eilen := rfl
@[simp] theorem State.polled_eipos (s : State) : s.polled.eipos = s.eipos := rfl
@[simp] theorem State.polled_eolen (s : State) : s.polled.eolen = s.eolen := rfl
@[simp] theorem State.polled_qr (s : State) : s.polled.qr = s.qr := rfl
@[simp] theorem State.polled_qg (s : State) : s.polled.qg = s.qg := rfl
@[simp] theorem State.polled_qb (s : State) : s.polled.qb = s.qb := rfl
@[simp] theorem State.polled_qa (s : State) : s.polled.qa = s.qa := rfl
@[simp] theorem State.polled_qidx (s : State) : s.polled.qidx = s.qidx := rfl
@[simp] theorem State.polled_pal (s : State) : s.polled.pal = s.pal := rfl
@[simp] theorem State.polled_pin (s : State) : s.polled.pin = s.pin := rfl
@[simp] theorem State.polled_din (s : State) : s.polled.din = s.din := rfl
@[simp] theorem State.polled_dout (s : State) : s.polled.dout = s.dout := rfl
@[simp] theorem State.polled_ein (s : State) : s.polled.ein = s.ein := rfl
@[simp] theorem State.polled_eout (s : State) : s.polled.eout = s.eout := rfl
@[simp] theorem State.polled_params (s : State) : s.polled.params = s.params := rfl
@[simp] theorem State.polled_stage (s : State) : s.polled.stage = s.stage := rfl
@[simp] theorem State.polled_host (s : State) : s.polled.host = s.host := rfl
@[simp] theorem State.polled_replies (s : State) : s.polled.replies = .reg 0x01#8 s.status.toNat :: s.replies := rfl
@[simp] theorem State.polled_epoch (s : State) : s.polled.epoch = s.epoch := rfl
@[simp] theorem State.polled_draws (s : State) : s.polled.draws = s.draws := rfl

/-! ### `State.writeByte`: only the space written to changes -/

@[simp] theorem State.writeByte_cmd (s : State) (sp : ByteSpace) (a : Nat) (v : Byte) :
    (s.writeByte sp a v).cmd = s.cmd := by cases sp <;> rfl
@[simp] theorem State.writeByte_status (s : State) (sp : ByteSpace) (a : Nat) (v : Byte) :
    (s.writeByte sp a v).status = s.status := by cases sp <;> rfl
@[simp] theorem State.writeByte_result (s : State) (sp : ByteSpace) (a : Nat) (v : Byte) :
    (s.writeByte sp a v).result = s.result := by cases sp <;> rfl
@[simp] theorem State.writeByte_plen (s : State) (sp : ByteSpace) (a : Nat) (v : Byte) :
    (s.writeByte sp a v).plen = s.plen := by cases sp <;> rfl
@[simp] theorem State.writeByte_dilen (s : State) (sp : ByteSpace) (a : Nat) (v : Byte) :
    (s.writeByte sp a v).dilen = s.dilen := by cases sp <;> rfl
@[simp] theorem State.writeByte_dsize (s : State) (sp : ByteSpace) (a : Nat) (v : Byte) :
    (s.writeByte sp a v).dsize = s.dsize := by cases sp <;> rfl
@[simp] theorem State.writeByte_dipos (s : State) (sp : ByteSpace) (a : Nat) (v : Byte) :
    (s.writeByte sp a v).dipos = s.dipos := by cases sp <;> rfl
@[simp] theorem State.writeByte_dopos (s : State) (sp : ByteSpace) (a : Nat) (v : Byte) :
    (s.writeByte sp a v).dopos = s.dopos := by cases sp <;> rfl
@[simp] theorem State.writeByte_dflags (s : State) (sp : ByteSpace) (a : Nat) (v : Byte) :
    (s.writeByte sp a v).dflags = s.dflags := by cases sp <;> rfl
@[simp] theorem State.writeByte_eilen (s : State) (sp : ByteSpace) (a : Nat) (v : Byte) :
    (s.writeByte sp a v).eilen = s.eilen := by cases sp <;> rfl
@[simp] theorem State.writeByte_eipos (s : State) (sp : ByteSpace) (a : Nat) (v : Byte) :
    (s.writeByte sp a v).eipos = s.eipos := by cases sp <;> rfl
@[simp] theorem State.writeByte_eolen (s : State) (sp : ByteSpace) (a : Nat) (v : Byte) :
    (s.writeByte sp a v).eolen = s.eolen := by cases sp <;> rfl
@[simp] theorem State.writeByte_qr (s : State) (sp : ByteSpace) (a : Nat) (v : Byte) :
    (s.writeByte sp a v).qr = s.qr := by cases sp <;> rfl
@[simp] theorem State.writeByte_qg (s : State) (sp : ByteSpace) (a : Nat) (v : Byte) :
    (s.writeByte sp a v).qg = s.qg := by cases sp <;> rfl
@[simp] theorem State.writeByte_qb (s : State) (sp : ByteSpace) (a : Nat) (v : Byte) :
    (s.writeByte sp a v).qb = s.qb := by cases sp <;> rfl
@[simp] theorem State.writeByte_qa (s : State) (sp : ByteSpace) (a : Nat) (v : Byte) :
    (s.writeByte sp a v).qa = s.qa := by cases sp <;> rfl
@[simp] theorem State.writeByte_qidx (s : State) (sp : ByteSpace) (a : Nat) (v : Byte) :
    (s.writeByte sp a v).qidx = s.qidx := by cases sp <;> rfl
@[simp] theorem State.writeByte_pal (s : State) (sp : ByteSpace) (a : Nat) (v : Byte) :
    (s.writeByte sp a v).pal = s.pal := by cases sp <;> rfl
@[simp] theorem State.writeByte_params (s : State) (sp : ByteSpace) (a : Nat) (v : Byte) :
    (s.writeByte sp a v).params = s.params := by cases sp <;> rfl
@[simp] theorem State.writeByte_stage (s : State) (sp : ByteSpace) (a : Nat) (v : Byte) :
    (s.writeByte sp a v).stage = s.stage := by cases sp <;> rfl
@[simp] theorem State.writeByte_host (s : State) (sp : ByteSpace) (a : Nat) (v : Byte) :
    (s.writeByte sp a v).host = s.host := by cases sp <;> rfl
@[simp] theorem State.writeByte_replies (s : State) (sp : ByteSpace) (a : Nat) (v : Byte) :
    (s.writeByte sp a v).replies = s.replies := by cases sp <;> rfl
@[simp] theorem State.writeByte_epoch (s : State) (sp : ByteSpace) (a : Nat) (v : Byte) :
    (s.writeByte sp a v).epoch = s.epoch := by cases sp <;> rfl
@[simp] theorem State.writeByte_draws (s : State) (sp : ByteSpace) (a : Nat) (v : Byte) :
    (s.writeByte sp a v).draws = s.draws := by cases sp <;> rfl

@[simp] theorem State.writeByte_mem (s : State) (sp sp' : ByteSpace) (a : Nat) (v : Byte) :
    (s.writeByte sp a v).mem sp' = if sp' = sp then (s.mem sp).put a v else s.mem sp' := by
  cases sp <;> cases sp' <;> rfl

end Sys2Proof.Machine
end

