-- ==== Sys2Proof/Laws/Flags.lean ====
section
/-! SUPPORT. What each named flag computation does to each bit. -/

namespace Sys2Proof.Machine

/-- The one fact about a flag update: bit `i` takes the value, every other bit is kept. -/
theorem withBit_getLsbD (b : Byte) (i j : Nat) (v : Bool) (h : i < 8) :
    (withBit b i v).getLsbD j = if j = i then v else b.getLsbD j := by
  have hbit (j : Nat) : (BitVec.twoPow 8 i).getLsbD j = decide (j = i) := by
    rw [BitVec.getLsbD_twoPow]
    by_cases hj : j = i
    · subst hj; simp [h]
    · have : ¬ i = j := fun e => hj e.symm
      simp [this, hj]
  cases v
  · have hnot : (~~~ BitVec.twoPow 8 i).getLsbD j = (decide (j < 8) && !decide (j = i)) := by
      rw [BitVec.getLsbD_not, hbit]
    rw [withBit, if_neg (by decide), BitVec.getLsbD_and, hnot]
    by_cases h8 : j < 8
    · by_cases hj : j = i <;> simp [h8, hj]
    · have hb : b.getLsbD j = false := BitVec.getLsbD_of_ge b j (by omega)
      simp [hb]
  · rw [withBit, if_pos rfl, BitVec.getLsbD_or, hbit]
    by_cases hj : j = i <;> simp [hj]

/-- A flag update of one of the low four bits keeps the reserved bits 7:4 at 0. -/
theorem withBit_lt_16 (b : Byte) (i : Nat) (v : Bool) (hi : i < 4) (hb : b.toNat < 16) : (withBit b i v).toNat < 16 := by
  have key : ∀ (b : Byte) (i : Fin 4) (v : Bool), b.toNat < 16 → (withBit b i.val v).toNat < 16 := by decide +kernel
  exact key b ⟨i, hi⟩ v hb

theorem statusStarted_getLsbD (b : Byte) (j : Nat) :
    (statusStarted b).getLsbD j = if j = 1 then false else if j = 0 then true else b.getLsbD j := by
  simp [statusStarted, withBit_getLsbD]

theorem statusEnded_getLsbD (b : Byte) (j : Nat) :
    (statusEnded b).getLsbD j = if j = 1 then true else if j = 0 then false else b.getLsbD j := by
  simp [statusEnded, withBit_getLsbD]

theorem statusPaletteValid_getLsbD (b : Byte) (j : Nat) :
    (statusPaletteValid b).getLsbD j = if j = 2 then true else b.getLsbD j := by
  simp [statusPaletteValid, withBit_getLsbD]

theorem statusStickyError_getLsbD (b : Byte) (j : Nat) :
    (statusStickyError b).getLsbD j = if j = 3 then true else b.getLsbD j := by
  simp [statusStickyError, withBit_getLsbD]

theorem statusErrorCleared_getLsbD (b : Byte) (j : Nat) :
    (statusErrorCleared b).getLsbD j = if j = 3 then false else b.getLsbD j := by
  simp [statusErrorCleared, withBit_getLsbD]

theorem flagsAtEnd_getLsbD (b : Byte) (short : Bool) (j : Nat) :
    (flagsAtEnd b short).getLsbD j = if j = 0 then short else b.getLsbD j := by
  simp [flagsAtEnd, withBit_getLsbD]

theorem flagsAfterMark_getLsbD (b : Byte) (j : Nat) :
    (flagsAfterMark b).getLsbD j = if j = 3 then true else b.getLsbD j := by
  simp [flagsAfterMark, withBit_getLsbD]

theorem flagsAfterRun_getLsbD (b : Byte) (n m j : Nat) :
    (flagsAfterRun b n m).getLsbD j =
      if j = 1 ∧ m < n then true else if j = 2 ∧ n = 0 then true else b.getLsbD j := by
  by_cases hn : n = 0
  · have h0 : ¬ m < n := by omega
    rw [flagsAfterRun, if_pos hn, if_neg h0, withBit_getLsbD _ 2 j true (by omega)]
    rw [if_neg (fun h : j = 1 ∧ m < n => h0 h.2)]
    simp only [hn, and_true]
  · by_cases hm : m < n
    · rw [flagsAfterRun, if_neg hn, if_pos hm, withBit_getLsbD _ 1 j true (by omega)]
      simp only [hn, hm, and_false, and_true, if_false]
    · rw [flagsAfterRun, if_neg hn, if_neg hm]
      simp only [hn, hm, and_false, if_false]

/-! ### The bits of STATUS after a command starts, completes or is refused -/

@[simp] theorem State.start_busy (s : State) (c : Byte) : (s.start c).busy = true := by
  simp only [State.busy, State.start_status, statusStarted_getLsbD]; simp

@[simp] theorem State.start_done (s : State) (c : Byte) : (s.start c).done = false := by
  simp only [State.done, State.start_status, statusStarted_getLsbD]; simp

@[simp] theorem State.complete_busy (s : State) : s.complete.busy = false := by
  simp only [State.busy, State.complete_status, statusEnded_getLsbD]; simp

@[simp] theorem State.complete_done (s : State) : s.complete.done = true := by
  simp only [State.done, State.complete_status, statusEnded_getLsbD]; simp

@[simp] theorem State.complete_palv (s : State) : s.complete.palv = s.palv := by
  simp only [State.palv, State.complete_status, statusEnded_getLsbD]; simp

@[simp] theorem State.complete_esticky (s : State) : s.complete.esticky = s.esticky := by
  simp only [State.esticky, State.complete_status, statusEnded_getLsbD]; simp

@[simp] theorem State.raise_busy (s : State) (r : Result) : (s.raise r).busy = false := by
  simp only [State.busy, State.raise_status, statusEnded_getLsbD]; simp

@[simp] theorem State.raise_done (s : State) (r : Result) : (s.raise r).done = true := by
  simp only [State.done, State.raise_status, statusEnded_getLsbD]; simp

@[simp] theorem State.raise_palv (s : State) (r : Result) : (s.raise r).palv = s.palv := by
  simp only [State.palv, State.raise_status, statusEnded_getLsbD, statusStickyError_getLsbD]; simp

@[simp] theorem State.raise_esticky (s : State) (r : Result) : (s.raise r).esticky = true := by
  simp only [State.esticky, State.raise_status, statusEnded_getLsbD, statusStickyError_getLsbD]; simp

end Sys2Proof.Machine
end

