-- ==== Sys2Proof/Laws/HostReference.lean ====
section
/-! SUPPORT. The codec as functions of bytes beside the commands' streams, and the sizes of what the surrounding software makes. -/

namespace Sys2Proof.Machine

@[simp] theorem State.bytes_length (s : State) (sp : ByteSpace) (n : Nat) : (s.bytes sp n).length = n := by
  simp [State.bytes]

/-- The stream R105 speaks of is the encoder's function of the raw bytes. -/
theorem State.encodedStream_eq (s : State) : s.encodedStream = encodedBytes (s.bytes .ein s.eilen.toNat) := by
  simp [State.encodedStream, encodedBytes]

/-- What R92 says of `DOUT[0..DSIZE-1]` is the decoder's function of the compressed bytes. -/
theorem decodedBytes_getD (s : State) (a : Nat) :
    (decodedBytes s.dsize.toNat (s.bytes .din s.dilen.toNat)).getD a 0x00#8 =
      (s.decodedOutput.take s.dsize.toNat).getD a 0x00#8 := by
  simp only [decodedBytes, State.bytes_length, State.decodedOutput, State.decodedTokens, List.getD_eq_getElem?_getD,
    List.getElem?_append]
  split
  · rfl
  · next h =>
    rw [List.getElem?_eq_none (by omega : _ ≤ a), List.getElem?_replicate]
    split <;> rfl

@[simp] theorem decodedBytes_length (size : Nat) (compressed : List Byte) : (decodedBytes size compressed).length = size := by
  simp only [decodedBytes, List.length_append, List.length_replicate, List.length_take]
  omega

namespace HostReference

@[simp] theorem build_length (l : HeaderLayout) (width height : Nat) : (build l width height).length = headerBytes := by
  simp [build]

/-- A byte of the header, read at its offset. -/
theorem build_getD (l : HeaderLayout) (width height o : Nat) (h : o < headerBytes) (d : Byte) :
    (build l width height).getD o d = headerByte l width height o := by
  simp [build, List.getD_eq_getElem?_getD, h]

/-- "`bytesPerLine ≥ width` and is word-aligned (even) on encode" (R163). -/
theorem bytesPerLine_covers (width : Nat) : width ≤ bytesPerLine width ∧ bytesPerLine width % 2 = 0 := by
  unfold bytesPerLine
  omega

/-- The encode direction makes a buffer of `height × bytesPerLine` bytes (R163, R166). -/
theorem converterEncode_whole (raster : Raster) (pal : Palette) : (converterEncode raster pal).Whole := by
  simp [IndexedBuffer.Whole, converterEncode, List.length_flatMap]

/-- The decode direction makes a whole raster (R164, R165). -/
theorem converterDecode_whole (buffer : IndexedBuffer) (pal : Palette) (width : Nat) :
    (converterDecode buffer pal width).Whole := by
  simp [Raster.Whole, converterDecode, List.length_flatMap, Nat.mul_comm]

/-- The decoder fills a buffer of `height × bytesPerLine` bytes (R163). -/
theorem decompress_whole (h : Header) (compressed : List Byte) : (decompress h compressed).Whole := by
  simp [IndexedBuffer.Whole, decompress, Header.decodedSize]

/-- Every size a header gives fits `DSIZE` (R4, R157). -/
theorem Header.decodedSize_fits (h : Header) : h.decodedSize < 2 ^ AW := by
  have hy := h.ymax.isLt
  have hb := h.bytesPerLine.isLt
  have h1 : h.height.toNat ≤ 65536 := by unfold Header.height; omega
  have h2 : h.bytesPerLine.toNat ≤ 65535 := by omega
  calc h.height.toNat * h.bytesPerLine.toNat ≤ 65536 * 65535 := Nat.mul_le_mul h1 h2
    _ < 2 ^ AW := by decide

end HostReference

end Sys2Proof.Machine
end

