-- ==== Sys2Proof/Laws/Memory.lean ====
section
/-! SUPPORT. Reading after writing, and that every memory operation keeps the canonical form and the extent. -/

namespace Sys2Proof.Machine

/-! ### Reading after writing -/

@[simp] theorem Memory.byteAt_nil (a : Nat) : Memory.byteAt [] a = none := rfl

theorem Memory.byteAt_put (m : Memory) (a b : Nat) (v : Byte) :
    (m.put a v).byteAt b = if b = a then some v else m.byteAt b := by
  induction m with
  | nil => simp [Memory.put, Memory.byteAt]
  | cons c rest ih =>
    obtain ⟨k, w⟩ := c
    by_cases hlt : a < k
    · simp [Memory.put, Memory.byteAt, hlt]
    · by_cases heq : a = k
      · subst heq
        by_cases hb : b = a <;> simp [Memory.put, Memory.byteAt, hb]
      · by_cases hb : b = k
        · subst hb
          have hne : b ≠ a := fun h => heq h.symm
          simp [Memory.put, Memory.byteAt, hlt, heq, hne]
        · simp [Memory.put, Memory.byteAt, hlt, heq, hb, ih]

@[simp] theorem Memory.byteAt_put_same (m : Memory) (a : Nat) (v : Byte) : (m.put a v).byteAt a = some v := by
  simp [Memory.byteAt_put]

theorem Memory.byteAt_put_other (m : Memory) {a b : Nat} (v : Byte) (h : b ≠ a) :
    (m.put a v).byteAt b = m.byteAt b := by
  simp [Memory.byteAt_put, h]

theorem Memory.byteAt_fill (m : Memory) (a n b : Nat) (v : Byte) :
    (m.fill a n v).byteAt b = if a ≤ b ∧ b < a + n then some v else m.byteAt b := by
  induction n generalizing m a with
  | zero =>
    rw [if_neg (by omega)]
    rfl
  | succ n ih =>
    simp only [Memory.fill, ih, Memory.byteAt_put]
    by_cases h1 : a + 1 ≤ b ∧ b < a + 1 + n
    · have h2 : a ≤ b ∧ b < a + (n + 1) := by omega
      simp [h1, h2]
    · by_cases h3 : b = a
      · have h2 : a ≤ b ∧ b < a + (n + 1) := by omega
        rw [if_neg h1, if_pos h3, if_pos h2]
      · have h2 : ¬ (a ≤ b ∧ b < a + (n + 1)) := by omega
        rw [if_neg h1, if_neg h3, if_neg h2]

theorem Memory.byteAt_putAll (m : Memory) (a b : Nat) (vs : List Byte) :
    (m.putAll a vs).byteAt b = if a ≤ b ∧ b < a + vs.length then vs[b - a]? else m.byteAt b := by
  induction vs generalizing m a with
  | nil =>
    rw [if_neg (by simp)]
    rfl
  | cons v vs ih =>
    simp only [Memory.putAll, ih, Memory.byteAt_put, List.length_cons]
    by_cases h1 : a + 1 ≤ b ∧ b < a + 1 + vs.length
    · have h2 : a ≤ b ∧ b < a + (vs.length + 1) := by omega
      have h3 : b - a = (b - (a + 1)) + 1 := by omega
      rw [if_pos h1, if_pos h2, h3, List.getElem?_cons_succ]
    · by_cases h3 : b = a
      · subst h3
        have h2 : b ≤ b ∧ b < b + (vs.length + 1) := by omega
        rw [if_neg h1, if_pos rfl, if_pos h2]
        simp
      · have h2 : ¬ (a ≤ b ∧ b < a + (vs.length + 1)) := by omega
        rw [if_neg h1, if_neg h3, if_neg h2]

/-! ### The canonical form -/

theorem Memory.wfFrom_mono {a b : Nat} (h : a ≤ b) (m : Memory) (hm : Memory.wfFrom b m = true) :
    Memory.wfFrom a m = true := by
  cases m with
  | nil => rfl
  | cons c rest =>
    obtain ⟨k, w⟩ := c
    simp only [Memory.wfFrom, Bool.and_eq_true, decide_eq_true_eq] at hm ⊢
    exact ⟨by omega, hm.2⟩

theorem Memory.wfFrom_put {l a : Nat} (v : Byte) (m : Memory) (hm : Memory.wfFrom l m = true) (h : l ≤ a) :
    Memory.wfFrom l (m.put a v) = true := by
  induction m generalizing l with
  | nil => simp [Memory.put, Memory.wfFrom, h]
  | cons c rest ih =>
    obtain ⟨k, w⟩ := c
    simp only [Memory.wfFrom, Bool.and_eq_true, decide_eq_true_eq] at hm
    by_cases hlt : a < k
    · simp only [Memory.put, hlt, if_true, Memory.wfFrom, Bool.and_eq_true, decide_eq_true_eq]
      exact ⟨h, by omega, hm.2⟩
    · by_cases heq : a = k
      · subst heq
        simp only [Memory.put, hlt, if_false, if_true, Memory.wfFrom, Bool.and_eq_true, decide_eq_true_eq]
        exact ⟨h, hm.2⟩
      · simp only [Memory.put, hlt, heq, if_false, Memory.wfFrom, Bool.and_eq_true, decide_eq_true_eq]
        exact ⟨hm.1, ih hm.2 (by omega)⟩

theorem Memory.put_wf (m : Memory) (a : Nat) (v : Byte) (hm : m.wf = true) : (m.put a v).wf = true :=
  Memory.wfFrom_put v m hm (Nat.zero_le a)

theorem Memory.fill_wf (m : Memory) (a n : Nat) (v : Byte) (hm : m.wf = true) : (m.fill a n v).wf = true := by
  induction n generalizing m a with
  | zero => exact hm
  | succ n ih => exact ih _ _ (Memory.put_wf m a v hm)

theorem Memory.putAll_wf (m : Memory) (a : Nat) (vs : List Byte) (hm : m.wf = true) : (m.putAll a vs).wf = true := by
  induction vs generalizing m a with
  | nil => exact hm
  | cons v vs ih => exact ih _ _ (Memory.put_wf m a v hm)

/-! ### The extent -/

theorem Memory.put_within (m : Memory) (a cap : Nat) (v : Byte) (hm : m.within cap = true) (h : a < cap) :
    (m.put a v).within cap = true := by
  induction m with
  | nil => simpa [Memory.put, Memory.within] using h
  | cons c rest ih =>
    obtain ⟨k, w⟩ := c
    simp only [Memory.within, List.all_cons, Bool.and_eq_true, decide_eq_true_eq] at hm
    by_cases hlt : a < k
    · simp only [Memory.put, hlt, if_true, Memory.within, List.all_cons, Bool.and_eq_true, decide_eq_true_eq]
      exact ⟨h, hm⟩
    · by_cases heq : a = k
      · subst heq
        simp only [Memory.put, hlt, if_false, if_true, Memory.within, List.all_cons, Bool.and_eq_true, decide_eq_true_eq]
        exact hm
      · simp only [Memory.put, hlt, heq, if_false, Memory.within, List.all_cons, Bool.and_eq_true, decide_eq_true_eq]
        exact ⟨hm.1, ih hm.2⟩

theorem Memory.fill_within (m : Memory) (a n cap : Nat) (v : Byte) (hm : m.within cap = true) (h : a + n ≤ cap) :
    (m.fill a n v).within cap = true := by
  induction n generalizing m a with
  | zero => exact hm
  | succ n ih => exact ih _ _ (Memory.put_within m a cap v hm (by omega)) (by omega)

theorem Memory.putAll_within (m : Memory) (a cap : Nat) (vs : List Byte) (hm : m.within cap = true)
    (h : a + vs.length ≤ cap) : (m.putAll a vs).within cap = true := by
  induction vs generalizing m a with
  | nil => exact hm
  | cons v vs ih =>
    simp only [List.length_cons] at h
    exact ih _ _ (Memory.put_within m a cap v hm (by omega)) (by omega)

/-! ### The five spaces -/

theorem State.readByte_writeByte (s : State) (sp sp' : ByteSpace) (a a' : Nat) (v : Byte) :
    (s.writeByte sp a v).readByte sp' a' = if sp' = sp ∧ a' = a then v else s.readByte sp' a' := by
  simp only [State.readByte, State.writeByte_mem, State.writeByte_epoch]
  by_cases h : sp' = sp
  · subst h
    by_cases ha : a' = a <;> simp [Memory.byteAt_put, ha]
  · simp [h]

/-- Reset lists nothing in any space. -/
theorem State.reset_mem (sp : ByteSpace) : State.reset.mem sp = [] := by cases sp <;> rfl

theorem State.reset_memory_wf (sp : ByteSpace) : (State.reset.mem sp).wf = true := by cases sp <;> rfl

end Sys2Proof.Machine
end

