-- ==== Sys2Proof/Laws/PerInstr.lean ====
section
/-! SUPPORT. Facts of every instruction as syntax, one lemma per constructor. -/

namespace Sys2Proof.Laws.EncodedLength

/-- An instruction's bytes are as many as its length says (R60, R64, R68): one, or two for a run. -/
def Statement (i : Instr) : Prop := (encode i).length = i.length ∧ 1 ≤ i.length ∧ i.length ≤ 2

theorem lit (v : Byte) : Statement (.lit v) := ⟨rfl, Nat.le.refl, Nat.le.step Nat.le.refl⟩
theorem run (n : BitVec 6) (v : Byte) : Statement (.run n v) := ⟨rfl, Nat.le.step Nat.le.refl, Nat.le.refl⟩
theorem run0 (v : Byte) : Statement (.run0 v) := ⟨rfl, Nat.le.step Nat.le.refl, Nat.le.refl⟩
theorem mark (n : BitVec 6) : Statement (.mark n) := ⟨rfl, Nat.le.refl, Nat.le.step Nat.le.refl⟩
theorem palLoad : Statement .palLoad := ⟨rfl, Nat.le.refl, Nat.le.step Nat.le.refl⟩
theorem rleDec : Statement .rleDec := ⟨rfl, Nat.le.refl, Nat.le.step Nat.le.refl⟩
theorem rleEnc : Statement .rleEnc := ⟨rfl, Nat.le.refl, Nat.le.step Nat.le.refl⟩
theorem cqNear : Statement .cqNear := ⟨rfl, Nat.le.refl, Nat.le.step Nat.le.refl⟩
theorem cqPix : Statement .cqPix := ⟨rfl, Nat.le.refl, Nat.le.step Nat.le.refl⟩
theorem clrErr : Statement .clrErr := ⟨rfl, Nat.le.refl, Nat.le.step Nat.le.refl⟩
theorem cmdReserved (code : Byte) : Statement (.cmdReserved code) := ⟨rfl, Nat.le.refl, Nat.le.step Nat.le.refl⟩

end Sys2Proof.Laws.EncodedLength
end

