-- ==== Sys2Proof/Laws/Step.lean ====
section
/-! SUPPORT. What one step can do, what one token fetch reads, and what one token does: said once, for later proofs to cite. -/

namespace Sys2Proof.Machine

/-- Everything a step to a next state can be: `rst` at once, a poll of `STATUS`, the hold of an idle block, a host move, or a move of the block. -/
theorem step_cases {s t : State} (h : step s = .next t) :
    (∃ rest, s.host = .rstAtOnce :: rest ∧ t = State.afterRst { s with host := rest }) ∨
    (∃ rest, s.host = .pollStatus :: rest ∧ t = State.polled { s with host := rest }) ∨
    (s.busy = false ∧ s.host = [] ∧ t = s) ∨
    (∃ m rest, s.busy = false ∧ s.host = m :: rest ∧ hostMove m { s with host := rest } = .next t) ∨
    (s.busy = true ∧ blockMove s = .next t) := by
  unfold step nextMove at h
  split at h
  · next rest hs => exact .inl ⟨rest, hs, (Host.Outcome.next.inj h).symm⟩
  · next rest hs => exact .inr (.inl ⟨rest, hs, (Host.Outcome.next.inj h).symm⟩)
  · split at h
    · next hb => exact .inr (.inr (.inr (.inr ⟨hb, h⟩)))
    · next hb =>
      have hb' : s.busy = false := by simpa using hb
      split at h
      · next hs => exact .inr (.inr (.inl ⟨hb', hs, (Host.Outcome.next.inj h).symm⟩))
      · next m rest hs => exact .inr (.inr (.inr (.inl ⟨m, rest, hb', hs, h⟩)))

/-- Every instruction completes: `exec` always gives a next state (R66, R188). -/
theorem exec_completes (i : Instr) (s : State) : ∃ t, exec i s = .next t := by
  cases i <;> exact ⟨_, rfl⟩

/-- Everything a move of the host can be when it has a meaning. -/
theorem hostMove_cases {m : HostMove} {s t : State} (h : hostMove m s = .next t) :
    (∃ num v w, m = .write num v ∧ registerWidth num = some w ∧ v < 2 ^ w ∧ t = s.writeRegister num v) ∨
    (∃ num w, m = .read num ∧ registerWidth num = some w ∧ t = (s.reply (.reg num (s.registerValue num))).countDraw num) ∨
    (∃ sp a v, m = .writeByte sp a v ∧ a < s.params.cap sp ∧ t = s.writeByte sp a v) ∨
    (∃ sp a, m = .readByte sp a ∧ a < s.params.cap sp ∧ t = s.reply (.byte sp a (s.readByte sp a))) ∨
    ((m = .rst ∨ m = .rstAtOnce) ∧ t = s.afterRst) ∨
    (m = .pollStatus ∧ t = s.polled) := by
  cases m with
  | write num v =>
    simp only [hostMove] at h
    split at h
    · cases h
    · next w hw =>
      split at h
      · next hv => cases h; exact .inl ⟨num, v, w, rfl, hw, hv, rfl⟩
      · cases h
  | read num =>
    simp only [hostMove] at h
    split at h
    · cases h
    · next w hw => cases h; exact .inr (.inl ⟨num, w, rfl, hw, rfl⟩)
  | writeByte sp a v =>
    simp only [hostMove] at h
    split at h
    · next ha => cases h; exact .inr (.inr (.inl ⟨sp, a, v, rfl, ha, rfl⟩))
    · cases h
  | readByte sp a =>
    simp only [hostMove] at h
    split at h
    · next ha => cases h; exact .inr (.inr (.inr (.inl ⟨sp, a, rfl, ha, rfl⟩)))
    · cases h
  | rst => cases h; exact .inr (.inr (.inr (.inr (.inl ⟨.inl rfl, rfl⟩))))
  | rstAtOnce => cases h; exact .inr (.inr (.inr (.inr (.inl ⟨.inr rfl, rfl⟩))))
  | pollStatus => cases h; exact .inr (.inr (.inr (.inr (.inr ⟨rfl, rfl⟩))))

/-- Everything a move of the block can be: a whole command, the beginning of a stepped one, one token, or the end of a stepped
command. -/
theorem blockMove_cases {s t : State} (h : blockMove s = .next t) :
    (s.stage = .whole ∧ s.params.grain = .token ∧ decodeCommand s.cmd = .rleDec ∧ t = decodeBegin s) ∨
    (s.stage = .whole ∧ s.params.grain = .token ∧ decodeCommand s.cmd = .rleEnc ∧ t = encodeBegin s) ∨
    (s.stage = .whole ∧ exec (decodeCommand s.cmd) s = .next t) ∨
    (s.stage = .decoding ∧ s.decoderActive ∧ ∃ i rest, decodeToken s.tokenBytes = .ok (i, rest) ∧ exec i s = .next t) ∨
    (s.stage = .decoding ∧ ¬ s.decoderActive ∧ t = decodeFinish s) ∨
    (s.stage = .encoding ∧ s.encoderActive ∧ t = encStep s) ∨
    (s.stage = .encoding ∧ ¬ s.encoderActive ∧ t = s.complete) := by
  unfold blockMove at h
  split at h
  · next hs =>
    unfold commandMove at h
    split at h
    · next hg hd => cases h; exact .inl ⟨hs, hg, hd, rfl⟩
    · next hg hd => cases h; exact .inr (.inl ⟨hs, hg, hd, rfl⟩)
    · exact .inr (.inr (.inl ⟨hs, h⟩))
  · next hs =>
    unfold tokenMove at h
    split at h
    · next ha =>
      split at h
      · next i rest hd => exact .inr (.inr (.inr (.inl ⟨hs, ha, i, rest, hd, h⟩)))
      · cases h
    · next ha => cases h; exact .inr (.inr (.inr (.inr (.inl ⟨hs, ha, rfl⟩))))
  · next hs =>
    unfold emitMove at h
    by_cases ha : s.encoderActive
    · rw [if_pos ha] at h; cases h; exact .inr (.inr (.inr (.inr (.inr (.inl ⟨hs, ha, rfl⟩)))))
    · rw [if_neg ha] at h; cases h; exact .inr (.inr (.inr (.inr (.inr (.inr ⟨hs, ha, rfl⟩)))))

/-- The bytes a token is fetched from while the loop test holds: the control byte alone when it is the last input byte, else the
control byte and the byte after it. -/
theorem tokenBytes_cases {s : State} (h : s.decoderActive) :
    (s.dipos.toNat + 1 = s.dilen.toNat ∧ s.tokenBytes = [s.readByte .din s.dipos.toNat]) ∨
    (s.dipos.toNat + 2 ≤ s.dilen.toNat ∧
      s.tokenBytes = [s.readByte .din s.dipos.toNat, s.readByte .din (s.dipos.toNat + 1)]) := by
  obtain ⟨-, hin⟩ := h
  by_cases hlast : s.dipos.toNat + 1 = s.dilen.toNat
  · left
    have : min 2 (s.dilen.toNat - s.dipos.toNat) = 1 := by omega
    exact ⟨hlast, by simp [State.tokenBytes, this]⟩
  · right
    have : min 2 (s.dilen.toNat - s.dipos.toNat) = 2 := by omega
    exact ⟨by omega, by simp [State.tokenBytes, this, List.range']⟩

/-- Everything `DecStep` can do while the loop test holds: a literal, a dangling marker, or a run (of count 0 to 63). -/
theorem decStep_cases {s : State} (h : s.decoderActive) :
    (∃ c : Byte, c = s.readByte .din s.dipos.toNat ∧ c.toNat < 0xC0 ∧ decStep s = literalEffect c s) ∨
    (∃ c : Byte, c = s.readByte .din s.dipos.toNat ∧ 0xC0 ≤ c.toNat ∧ s.dipos.toNat + 1 = s.dilen.toNat ∧
      decStep s = danglingEffect s) ∨
    (∃ c v : Byte, c = s.readByte .din s.dipos.toNat ∧ v = s.readByte .din (s.dipos.toNat + 1) ∧ 0xC0 ≤ c.toNat ∧
      s.dipos.toNat + 2 ≤ s.dilen.toNat ∧ decStep s = runEffect (countField c).toNat v s) := by
  by_cases hc : isRunMarker (s.readByte .din s.dipos.toNat) = true
  · have h192 := (isRunMarker_iff _).mp hc
    rcases tokenBytes_cases h with ⟨hlast, hb⟩ | ⟨htwo, hb⟩
    · exact .inr (.inl ⟨_, rfl, h192, hlast, by simp [decStep, hb, decodeToken, hc, tokenEffect]⟩)
    · have hne : ¬ s.dipos.toNat + 1 = s.dilen.toNat := by omega
      refine .inr (.inr ⟨_, _, rfl, rfl, h192, htwo, ?_⟩)
      by_cases hn : countField (s.readByte .din s.dipos.toNat) = 0#6 <;>
        simp [decStep, hb, decodeToken, hc, hn, tokenEffect, markerEffect, hne]
  · have hlow : (s.readByte .din s.dipos.toNat).toNat < 0xC0 := by
      have := mt (isRunMarker_iff (s.readByte .din s.dipos.toNat)).mpr hc
      omega
    refine .inl ⟨_, rfl, hlow, ?_⟩
    rcases tokenBytes_cases h with ⟨-, hb⟩ | ⟨-, hb⟩ <;>
      simp [decStep, hb, decodeToken, hc, tokenEffect]

/-- A read of any space is a read of its written bytes under the reset's number. -/
theorem State.readByte_congr {s t : State} (sp : ByteSpace) (a : Nat) (hm : t.mem sp = s.mem sp) (he : t.epoch = s.epoch) :
    t.readByte sp a = s.readByte sp a := by
  simp [State.readByte, hm, he]

end Sys2Proof.Machine
end

