-- ==== Sys2Proof/Tests/Slice0.lean ====
section
/-! SUPPORT. Tests: ill-formed terms refused, words written out from the encodings, small steps from the spec's vectors, and a
witness for the hypotheses of every statement. -/

namespace Sys2Proof.Tests

open Sys2Proof.Machine

-- One test after another: each kernel evaluation waits for the checks before it, and waiting threads take memory.
set_option Elab.async false

/-! ### WellFormed refuses -/

theorem test_wf_refuses_literal_above_BF : (Instr.lit 0xC0#8).wf = false := by decide
theorem test_wf_accepts_literal_BF : (Instr.lit 0xBF#8).wf = true := by decide
theorem test_wf_refuses_run_of_zero : (Instr.run 0#6 0x55#8).wf = false := by decide
theorem test_wf_refuses_reserved_of_named_code : (Instr.cmdReserved 0x06#8).wf = false := by decide
theorem test_wf_accepts_reserved_07 : (Instr.cmdReserved 0x07#8).wf = true := by decide

/-! ### Words written out bit by bit from 30_encoding.md and the rows of opcode_table.json -/

/-- R61: `00vvvvvv`, `01vvvvvv`, `10vvvvvv` are literals, and take one byte. -/
theorem test_decode_literals :
    decodeToken [0b00000000#8, 0xFF#8] = .ok (.lit 0x00#8, [0xFF#8]) ∧
    decodeToken [0b01000001#8, 0xFF#8] = .ok (.lit 0x41#8, [0xFF#8]) ∧
    decodeToken [0b10111111#8, 0xFF#8] = .ok (.lit 0xBF#8, [0xFF#8]) := by decide

/-- R62: `11nnnnnn vvvvvvvv`, n 1 to 63; R64: the value byte is not a control byte. -/
theorem test_decode_runs :
    decodeToken [0b11000001#8, 0b11000101#8, 0x00#8] = .ok (.run 1#6 0xC5#8, [0x00#8]) ∧
    decodeToken [0b11010000#8, 0b00000001#8] = .ok (.run 16#6 0x01#8, []) ∧
    decodeToken [0b11111111#8, 0b01000001#8] = .ok (.run 63#6 0x41#8, []) := by decide

/-- R63: `11000000 vvvvvvvv` is `RUN0`. -/
theorem test_decode_run0 : decodeToken [0b11000000#8, 0x55#8] = .ok (.run0 0x55#8, []) := by decide

/-- R72, R89: a marker with no value byte. -/
theorem test_decode_mark :
    decodeToken [0b11000101#8] = .ok (.mark 5#6, []) ∧ decodeToken [0b11000000#8] = .ok (.mark 0#6, []) := by decide

/-- The decoder turns away the empty stream, by name. -/
theorem test_decode_refuses_no_bytes :
    decode .token [] = .error .noBytes ∧ decode .command [] = .error .noBytes := by decide

/-- R68: the six codes. -/
theorem test_decode_commands :
    [0b00000001#8, 0b00000010#8, 0b00000011#8, 0b00000100#8, 0b00000101#8, 0b00000110#8].map decodeCommand =
      [.palLoad, .rleDec, .rleEnc, .cqNear, .cqPix, .clrErr] := by decide

/-- R69: the least code of each reserved row of the table. -/
theorem test_decode_reserved_rows :
    [0b00000000#8, 0b00000111#8, 0b00001000#8, 0b00010000#8, 0b00100000#8, 0b01000000#8, 0b10000000#8].map decodeCommand =
      [.cmdReserved 0x00#8, .cmdReserved 0x07#8, .cmdReserved 0x08#8, .cmdReserved 0x10#8, .cmdReserved 0x20#8,
        .cmdReserved 0x40#8, .cmdReserved 0x80#8] := by decide

/-- R73: the expansion of `REP 100, 0x41` (S3), and of `ESC 0xC5` (S2). -/
theorem test_pseudo_tokens :
    (pseudoRep 100 0x41#8).flatMap encode = [0xFF#8, 0x41#8, 0xE5#8, 0x41#8] ∧
    encode (pseudoEsc 0xC5#8) = [0xC1#8, 0xC5#8] := by decide

theorem test_table_words :
    decodeTableWord 8 0x05 = some .cqPix ∧ decodeTableWord 8 0xC0 = some (.run0 0x00#8) ∧
    decodeTableWord 8 0x80 = some (.lit 0x80#8) ∧ decodeTableWord 16 0x07C5 = some (.run 5#6 0x07#8) := by decide

/-! ### Small states -/

/-- A field of the next state, if there is one. -/
def after {α : Type} (o : Host.Outcome State Fault Refusal) (f : State → α) : Option α :=
  match o with
  | .next t => some (f t)
  | .fault _ => none
  | .refused _ => none

/-- `RLE.DEC` about to run on a stream. -/
def decoding (bytes : List Byte) (size : Nat) : State :=
  { State.reset with
    din := Memory.putAll [] 0 bytes
    dilen := BitVec.ofNat AW bytes.length
    dsize := BitVec.ofNat AW size }

/-- `RLE.ENC` about to run on raw bytes. -/
def encoding (bytes : List Byte) : State :=
  { State.reset with
    ein := Memory.putAll [] 0 bytes
    eilen := BitVec.ofNat AW bytes.length }

/-- A palette of one colour but for one entry. -/
def paletteBut (c : Rgb) (i : Fin 256) (e : Rgb) : Palette := (Vector.replicate 256 c).set i e

/-- A pixel to quantize, with a palette. -/
def pixel (pal : Palette) (r g b a : Byte) : State :=
  { State.reset with status := 0x04#8, pal := pal, qr := r, qg := g, qb := b, qa := a }

/-- White. -/
def white : Rgb := ⟨255#8, 255#8, 255#8⟩

/-- `s` busy with a command, at a grain. -/
def busyWith (s : State) (c : Byte) (g : Grain) : State := { s.start c with params := { s.params with grain := g } }

/-! ### Steps from the vectors of 95_test_vectors.md and the examples of the rules -/

/-- R85's example. -/
theorem test_lit : after (exec (.lit 0x41#8) (decoding [0x41#8] 1)) (fun t => (t.dout, t.dipos, t.dopos)) =
    some ([(0, 0x41#8)], 1#AW, 1#AW) := by decide +kernel

/-- R86's example. -/
theorem test_run : after (exec (.run 3#6 0xAA#8) (decoding [0xC3#8, 0xAA#8] 3)) (fun t => (t.dout, t.dipos, t.dopos, t.dflags)) =
    some ([(0, 0xAA#8), (1, 0xAA#8), (2, 0xAA#8)], 2#AW, 3#AW, 0x00#8) := by decide +kernel

/-- R87's example (V14). -/
theorem test_run_clipped :
    after (exec (.run 5#6 0x07#8) (decoding [0xC5#8, 0x07#8] 3)) (fun t => (t.dout, t.dipos, t.dopos, t.dflags)) =
      some ([(0, 0x07#8), (1, 0x07#8), (2, 0x07#8)], 2#AW, 3#AW, 0x02#8) := by decide +kernel

/-- R88: two bytes consumed, nothing written, `ZRUN`. -/
theorem test_run0 : after (exec (.run0 0x55#8) (decoding [0xC0#8, 0x55#8, 0x41#8] 1)) (fun t => (t.dout, t.dipos, t.dopos, t.dflags)) =
    some ([], 2#AW, 0#AW, 0x04#8) := by decide +kernel

/-- R89: the marker consumed, nothing written, `DANGLE`. -/
theorem test_mark : after (exec (.mark 0#6) (decoding [0xC0#8] 2)) (fun t => (t.dout, t.dipos, t.dopos, t.dflags)) =
    some ([], 1#AW, 0#AW, 0x08#8) := by decide +kernel

/-- V16: clip and leftover input together. -/
theorem test_rleDec_V16 :
    after (exec .rleDec (decoding [0x41#8, 0x42#8, 0xC3#8, 0x09#8, 0x43#8] 3)) (fun t => (t.dout, t.dipos, t.dopos, t.dflags, t.status)) =
      some ([(0, 0x41#8), (1, 0x42#8), (2, 0x09#8)], 4#AW, 3#AW, 0x02#8, 0x02#8) := by decide +kernel

/-- V24: a value byte 0xC1 is data, the third byte is a dangling marker. -/
theorem test_rleDec_V24 :
    after (exec .rleDec (decoding [0xC1#8, 0xC1#8, 0xC1#8] 3)) (fun t => (t.dout, t.dipos, t.dopos, t.dflags)) =
      some ([(0, 0xC1#8), (1, 0x00#8), (2, 0x00#8)], 3#AW, 1#AW, 0x09#8) := by decide +kernel

/-- E18: a mixed input. -/
theorem test_rleEnc_E18 :
    after (exec .rleEnc (encoding [0x41#8, 0x41#8, 0x42#8, 0xC0#8, 0xC0#8, 0xC0#8, 0x00#8]))
      (fun t => (t.eout.map Prod.snd, t.eipos, t.eolen, t.status)) =
      some ([0xC2#8, 0x41#8, 0x42#8, 0xC3#8, 0xC0#8, 0x00#8], 7#AW, 6#(AW + 1), 0x02#8) := by decide +kernel

/-- E19: the worst case, three escapes. -/
theorem test_rleEnc_E19 :
    after (exec .rleEnc (encoding [0xC0#8, 0xC1#8, 0xC2#8])) (fun t => (t.eout.map Prod.snd, t.eolen)) =
      some ([0xC1#8, 0xC0#8, 0xC1#8, 0xC1#8, 0xC1#8, 0xC2#8], 6#(AW + 1)) := by decide +kernel

/-- L7: the channel order of the first two entries of the blob. -/
theorem test_palLoad_L7 :
    let s := { State.reset with plen := 768#AW, pin := Memory.putAll [] 0 [1#8, 2#8, 3#8, 4#8, 5#8, 6#8] }
    (s.blobEntry 0, s.blobEntry 1) = ((⟨1#8, 2#8, 3#8⟩ : Rgb), (⟨4#8, 5#8, 6#8⟩ : Rgb)) ∧
      after (exec .palLoad s) (fun t => (t.status, t.result)) = some (0x06#8, 0x00#8) := by decide +kernel

/-- L4: 769 bytes are refused. -/
theorem test_palLoad_L4 :
    after (exec .palLoad { State.reset with plen := 769#AW }) (fun t => (t.status, t.result)) = some (0x0A#8, 0x01#8) := by
  decide +kernel

/-- Q20: an 8-bit difference would wrap and wrongly give 1. -/
theorem test_nearest_Q20 :
    nearestIndex (fun i => dist 0#8 0#8 0#8 (if i = 1 then ⟨255#8, 0#8, 0#8⟩ else if i = 2 then ⟨16#8, 0#8, 0#8⟩ else white)) = 2 := by
  decide +kernel

/-- Q11: a tie at the top of the range goes to the lower index. -/
theorem test_nearest_Q11 :
    nearestIndex (fun i => dist 9#8 9#8 9#8 (if 254 ≤ i then ⟨9#8, 9#8, 9#8⟩ else white)) = 254 := by decide +kernel

/-- The boundary of Q14: alpha 128 is transparent. -/
theorem test_cqPix_transparent :
    after (exec .cqPix (pixel (paletteBut white 1 white) 200#8 200#8 200#8 128#8)) (fun t => t.qidx) = some 0#8 := by
  decide +kernel

/-- The boundary of Q15: alpha 129 is searched; all candidates equal, the first wins. -/
theorem test_cqPix_opaque : after (exec .cqPix (pixel (Vector.replicate 256 white) 9#8 9#8 9#8 129#8)) (fun t => t.qidx) = some 1#8 := by
  decide +kernel

/-- X4: `CLRERR` after a refusal. -/
theorem test_clrErr_X4 :
    after (exec .clrErr { State.reset with status := 0x0A#8, result := 0x04#8 }) (fun t => (t.result, t.status)) =
      some (0x00#8, 0x02#8) := by decide +kernel

/-- X1: a reserved code on a block fresh from reset. -/
theorem test_cmdReserved_X1 : after (exec (.cmdReserved 0x00#8) State.reset) (fun t => (t.result, t.status)) =
    some (0x04#8, 0x0A#8) := by decide +kernel

/-- X8: a write to STATUS is ignored. -/
theorem test_write_status_X8 :
    after (step { State.reset with status := 0x06#8, host := [.write 0x01#8 0xFF] }) (fun t => t.status) = some 0x06#8 := by
  decide +kernel

/-- A write of `CMD` makes the block busy (R12). -/
theorem test_write_cmd : after (step { State.reset with host := [.write 0x00#8 0x06] }) (fun t => (t.cmd, t.status)) =
    some (0x06#8, 0x01#8) := by decide +kernel

/-- `withFetchWord` runs a token and a command as the first instruction after reset. -/
theorem test_fetch_word_token : after (step (State.reset.withFetchWord 8 0xC5)) (fun t => (t.dipos, t.dopos)) = some (2#AW, 5#AW) := by
  decide +kernel

theorem test_fetch_word_command : after (step (State.reset.withFetchWord 8 0x01)) (fun t => t.result) = some 0x01#8 := by
  decide +kernel

/-! ### Witnesses: concrete inputs that meet the hypotheses of the statements, at the ends of their ranges -/

theorem witness_DecodeOfEncodeGivesInstruction :
    (Instr.lit 0xBF#8).wf = true ∧ (Instr.run 63#6 0xFF#8).wf = true ∧ (Instr.mark 0#6).wf = true ∧
    (Instr.cmdReserved 0x00#8).wf = true ∧ (Instr.cmdReserved 0xFF#8).wf = true ∧
    (∀ n, Instr.run0 0x00#8 ≠ .mark n) := by
  refine ⟨by decide, by decide, by decide, by decide, by decide, ?_⟩
  intro n h; cases h

theorem witness_EveryStreamDecodesToItsOwnToken : ([0xC0#8] : List Byte) ≠ [] := by decide

theorem witness_ControlByteSelectsToken :
    (0xBF#8 : Byte).toNat < 0xC0 ∧ (0xC0#8 : Byte).toNat = 0xC0 ∧ 0xC1 ≤ (0xC1#8 : Byte).toNat ∧ 0xC1 ≤ (0xFF#8 : Byte).toNat := by decide

theorem witness_CommandCodes : (0x00#8 : Byte).toNat = 0 ∧ 7 ≤ (0x07#8 : Byte).toNat ∧ 7 ≤ (0xFF#8 : Byte).toNat := by decide

theorem witness_StepRunsTheCommandInCmd :
    let s := busyWith State.reset 0x02#8 .command
    let u := busyWith State.reset 0x01#8 .token
    (s.busy = true ∧ s.stage = .whole ∧ s.HostWaits ∧ s.params.grain = .command ∧
      decode .command [s.cmd] = .ok (.rleDec, [])) ∧
    (u.busy = true ∧ u.stage = .whole ∧ u.HostWaits ∧ Instr.palLoad ≠ .rleDec ∧ Instr.palLoad ≠ .rleEnc ∧
      decode .command [u.cmd] = .ok (.palLoad, [])) := by decide +kernel

theorem witness_StepRunsTheTokenAtDipos :
    let s := { busyWith (decoding [0xC3#8, 0x07#8] 1) 0x02#8 .token with stage := .decoding }
    s.busy = true ∧ s.stage = .decoding ∧ s.decoderActive ∧ s.HostWaits ∧
      decode .token s.tokenBytes = .ok (.run 3#6 0x07#8, []) := by decide +kernel

theorem witness_StepPerformsTheNextHostMove :
    (State.reset.busy = false ∧ State.reset.host = []) ∧
    (let s := { State.reset with host := [.rstAtOnce, .rst] }
     s.busy = false ∧ s.host = .rstAtOnce :: [.rst]) ∧
    (let s := { busyWith State.reset 0x02#8 .token with host := [.pollStatus] }
     s.busy = true ∧ s.host = .pollStatus :: []) := by decide +kernel

theorem witness_PlacedWordIsRunNext :
    decodeTableWord 8 0x00 = some (.cmdReserved 0x00#8) ∧ decodeTableWord 8 0xFF = some (.run 63#6 0x00#8) ∧
    decodeTableWord 16 0x0041 = some (.lit 0x41#8) := by decide

theorem witness_DecStepIsTheMeaningOfItsToken :
    (decoding [0xC3#8] 1).decoderActive ∧ (decoding [0xC0#8, 0x07#8] 1).decoderActive := by decide +kernel

theorem witness_LiteralStoresItself : (decoding [0xBF#8] 1).decoderActive := by decide +kernel

theorem witness_RunThatFitsStoresItsCopies :
    let s := decoding [0xFF#8, 0x00#8] 63
    s.decoderActive ∧ s.dipos.toNat + 1 ≠ s.dilen.toNat ∧ (63#6 : BitVec 6) ≠ 0#6 ∧
      (63#6 : BitVec 6).toNat ≤ s.dsize.toNat - s.dopos.toNat := by decide +kernel

theorem witness_RunThatDoesNotFitIsClipped :
    let s := decoding [0xFF#8, 0x00#8] 62
    s.decoderActive ∧ s.dipos.toNat + 1 ≠ s.dilen.toNat ∧ s.dsize.toNat - s.dopos.toNat < (63#6 : BitVec 6).toNat := by
  decide +kernel

theorem witness_ZeroRunStoresNothing :
    let s := decoding [0xC0#8, 0x55#8] 1
    s.decoderActive ∧ s.dipos.toNat + 1 ≠ s.dilen.toNat := by decide +kernel

theorem witness_NothingButZeroRunsExhaustsInput :
    let s := decoding [0xC0#8, 0x55#8] 2
    ¬ s.decodeTooLong ∧ 0 < s.dsize.toNat ∧ s.dilen.toNat = 2 * 1 ∧ 0 < 1 ∧
      ∀ j, j < 1 → s.readByte .din (2 * j) = 0xC0#8 := by decide +kernel

theorem witness_DanglingMarkerIsConsumed :
    let s := decoding [0xC3#8] 4
    s.decoderActive ∧ s.dipos.toNat + 1 = s.dilen.toNat ∧
      ((∃ n, Instr.mark 3#6 = .mark n) ∨ (∃ n v, Instr.mark 3#6 = .run n v) ∨ (∃ v, Instr.mark 3#6 = .run0 v)) ∧
      ((∃ n, Instr.run 3#6 0#8 = .mark n) ∨ (∃ n v, Instr.run 3#6 0#8 = .run n v) ∨ (∃ v, Instr.run 3#6 0#8 = .run0 v)) ∧
      ((∃ n, Instr.run0 0#8 = .mark n) ∨ (∃ n v, Instr.run0 0#8 = .run n v) ∨ (∃ v, Instr.run0 0#8 = .run0 v)) :=
  ⟨by decide +kernel, by decide +kernel, .inl ⟨_, rfl⟩, .inr (.inl ⟨_, _, rfl⟩), .inr (.inr ⟨_, rfl⟩)⟩

theorem witness_TokenOutsideTheLoopIsNotInterpreted :
    (Instr.lit 0x41#8).space = .token ∧ ¬ (decoding [0x41#8] 0).decoderActive ∧ ¬ (decoding [] 1).decoderActive := by decide +kernel

/-- Extents of 4 bytes, as the refusals of 95_test_vectors.md section 2.1 use. -/
def small : Params := ⟨768, 4, 4, 4, 8, .command⟩

theorem witness_RleDecIsRefusedOnlyForLength :
    (let s := { decoding [1#8, 2#8, 3#8, 4#8, 5#8] 0 with params := small }
     s.params.dinCap < s.dilen.toNat ∨ s.params.doutCap < s.dsize.toNat) ∧
    (let s := { decoding [] 5 with params := small }
     s.params.dinCap < s.dilen.toNat ∨ s.params.doutCap < s.dsize.toNat) ∧
    (let s := { decoding [1#8, 2#8, 3#8, 4#8] 4 with params := small }
     ¬ (s.params.dinCap < s.dilen.toNat ∨ s.params.doutCap < s.dsize.toNat)) := by decide +kernel

theorem witness_RleDecEndState : ¬ ({ decoding [0xC5#8, 7#8] 4 with params := small } : State).decodeTooLong := by decide +kernel

theorem witness_RleDecDependsOnItsInputAlone :
    ∃ s₁ s₂ t₁ t₂ : State, ¬ s₁.decodeTooLong ∧ ¬ s₂.decodeTooLong ∧ s₁.dilen = s₂.dilen ∧ s₁.dsize = s₂.dsize ∧
      (∀ a, a < s₁.dilen.toNat → s₁.readByte .din a = s₂.readByte .din a) ∧
      exec .rleDec s₁ = .next t₁ ∧ exec .rleDec s₂ = .next t₂ ∧ s₁.dflags ≠ s₂.dflags :=
  ⟨decoding [0x41#8] 2, { decoding [0x41#8, 0x42#8] 2 with dilen := 1#AW, dflags := 2#8 }, _, _, by decide +kernel,
    by decide +kernel, by decide +kernel, by decide +kernel, by decide +kernel, rfl, rfl, by decide +kernel⟩

theorem witness_RleDecWithSmallerSizeGivesPrefix :
    let s₁ := decoding [0xC3#8, 0x41#8] 3
    let s₂ := decoding [0xC3#8, 0x41#8] 2
    ∃ t₁ t₂, ¬ s₁.decodeTooLong ∧ ¬ s₂.decodeTooLong ∧ s₁.dilen = s₂.dilen ∧
      (∀ a, a < s₁.dilen.toNat → s₁.readByte .din a = s₂.readByte .din a) ∧
      exec .rleDec s₁ = .next t₁ ∧ exec .rleDec s₂ = .next t₂ ∧ s₂.dsize.toNat ≤ t₁.dopos.toNat :=
  ⟨_, _, by decide +kernel, by decide +kernel, by decide +kernel, by decide +kernel, rfl, rfl, by decide +kernel⟩

theorem witness_RleEncIsRefusedOnlyForLength :
    (let s := { encoding (List.replicate 4 0x41#8) with params := { small with eoutCap := 6 } }
     s.params.einCap < s.eilen.toNat ∨ s.params.eoutCap < 2 * s.eilen.toNat) ∧
    (let s := { encoding (List.replicate 5 0x41#8) with params := { small with eoutCap := 10 } }
     s.params.einCap < s.eilen.toNat ∨ s.params.eoutCap < 2 * s.eilen.toNat) ∧
    (let s := { encoding (List.replicate 4 0x41#8) with params := small }
     ¬ (s.params.einCap < s.eilen.toNat ∨ s.params.eoutCap < 2 * s.eilen.toNat)) ∧
    (State.reset.params.einCap = 2 ^ AW - 1 ∧ State.reset.params.eoutCap = 2 ^ (AW + 1) - 2) := by decide +kernel

theorem witness_RunLengthIsLargest : 62 < 63 := by decide

/-- A run, an escape and a literal, each the last token its output bound admits. -/
theorem witness_EncStepEmitsOneToken :
    (let s := encoding [0x41#8, 0x41#8]
     s.encoderActive ∧ s.eolen.toNat + 1 < 2 * s.eilen.toNat ∧ 1 < s.encoderRun) ∧
    (let s := encoding [0xC0#8]
     s.encoderActive ∧ s.eolen.toNat + 1 < 2 * s.eilen.toNat ∧ 0xC0 ≤ (s.readByte .ein s.eipos.toNat).toNat) ∧
    (let s := encoding [0xBF#8]
     s.encoderActive ∧ s.eolen.toNat + 1 < 2 * s.eilen.toNat ∧ s.encoderRun = 1 ∧
       (s.readByte .ein s.eipos.toNat).toNat < 0xC0) := by decide +kernel

theorem witness_RleEncEndState : ¬ ({ encoding [0xC0#8, 0xC1#8, 0xC2#8, 0xC3#8] with params := small } : State).encodeTooLong := by
  decide +kernel

theorem witness_EncoderOutputSize : ∃ t, ¬ (encoding [0xC0#8]).encodeTooLong ∧ exec .rleEnc (encoding [0xC0#8]) = .next t :=
  ⟨_, by decide +kernel, rfl⟩

theorem witness_EncoderOutputIsCanonical :
    ∃ t, ¬ (encoding (List.replicate 64 0xFF#8)).encodeTooLong ∧ exec .rleEnc (encoding (List.replicate 64 0xFF#8)) = .next t :=
  ⟨_, by decide +kernel, rfl⟩

theorem witness_EqualBytesEncodeAsRep :
    let s := encoding [0x41#8, 0x41#8, 0x41#8]
    ∃ t, ¬ s.encodeTooLong ∧ 1 ≤ s.eilen.toNat ∧ (∀ a, a < s.eilen.toNat → s.readByte .ein a = 0x41#8) ∧
      exec .rleEnc s = .next t :=
  ⟨_, by decide +kernel, by decide +kernel, by decide +kernel, rfl⟩

/-- Program P1 of 95_test_vectors.md, shortened: encode, copy, decode. -/
theorem witness_RoundTrip :
    let s := encoding [0x12#8, 0x12#8, 0x00#8, 0xC1#8]
    let u := decoding [0xC2#8, 0x12#8, 0x00#8, 0xC1#8, 0xC1#8] 4
    ∃ t, ¬ s.encodeTooLong ∧ exec .rleEnc s = .next t ∧ ¬ u.decodeTooLong ∧ u.dilen.toNat = t.eolen.toNat ∧
      u.dsize = s.eilen ∧ (∀ a, a < t.eolen.toNat → u.readByte .din a = t.readByte .eout a) :=
  ⟨_, by decide +kernel, rfl, by decide +kernel, by decide +kernel, by decide +kernel, by decide +kernel⟩

/-- R110 with a smaller and a larger size. -/
theorem witness_RoundTripWithAnotherSize :
    let s := encoding [0x12#8, 0x12#8]
    let u := decoding [0xC2#8, 0x12#8] 1
    let u' := decoding [0xC2#8, 0x12#8] 3
    ∃ t, ¬ s.encodeTooLong ∧ exec .rleEnc s = .next t ∧
      ¬ u.decodeTooLong ∧ u.dilen.toNat = t.eolen.toNat ∧
      (∀ a, a < t.eolen.toNat → u.readByte .din a = t.readByte .eout a) ∧
      ¬ u'.decodeTooLong ∧ u'.dilen.toNat = t.eolen.toNat ∧
      (∀ a, a < t.eolen.toNat → u'.readByte .din a = t.readByte .eout a) :=
  ⟨_, by decide +kernel, rfl, by decide +kernel, by decide +kernel, by decide +kernel, by decide +kernel, by decide +kernel,
    by decide +kernel⟩

theorem witness_PalLoadRefusesOtherSizes :
    ({ State.reset with plen := 767#AW } : State).plen.toNat ≠ 768 ∧ ({ State.reset with plen := 769#AW } : State).plen.toNat ≠ 768 := by
  decide +kernel

theorem witness_PalLoadLoadsTheTriples : ({ State.reset with plen := 768#AW } : State).plen.toNat = 768 ∧ 255 < 256 := by decide +kernel

theorem witness_QuantizerNeedsPalette : State.reset.palv = false := by decide +kernel

theorem witness_CqNearFindsTheNearestCandidate :
    State.reset.palv = false ∧ (pixel (paletteBut white 1 white) 0#8 0#8 0#8 0#8).palv = true := by decide +kernel

theorem witness_CqPixAppliesTheAlphaThreshold :
    State.reset.palv = false ∧
    (pixel (paletteBut white 1 white) 0#8 0#8 0#8 128#8).palv = true ∧ (pixel (paletteBut white 1 white) 0#8 0#8 0#8 128#8).qa.toNat ≤ 128 ∧
    (pixel (paletteBut white 1 white) 0#8 0#8 0#8 129#8).palv = true ∧ 128 < (pixel (paletteBut white 1 white) 0#8 0#8 0#8 129#8).qa.toNat := by decide +kernel

/-- Entry `i` of a palette of one colour but for one entry. -/
theorem paletteBut_entry (c : Rgb) (k : Fin 256) (e : Rgb) (i : Nat) (hi : i ≤ 255) :
    (paletteBut c k e).entry i = if i = k.val then e else c := by
  have h : i < Config.palEntries := Nat.lt_succ_of_le hi
  simp [Palette.entry, paletteBut, Vector.getD, h]
  simp [Array.getElem_set, eq_comm]

/-- Two palettes that differ in entry 0 alone. -/
theorem witness_QuantizerReadsPixelAndCandidatesAlone :
    let s₁ := pixel (paletteBut white 0 white) 9#8 9#8 9#8 200#8
    let s₂ := pixel (paletteBut white 0 ⟨9#8, 9#8, 9#8⟩) 9#8 9#8 9#8 200#8
    (∃ t₁ t₂ : State, exec .cqNear s₁ = .next t₁ ∧ exec .cqNear s₂ = .next t₂) ∧
    (∃ t₁ t₂ : State, exec .cqPix s₁ = .next t₁ ∧ exec .cqPix s₂ = .next t₂) ∧
    s₁.palv = true ∧ s₂.palv = true ∧ s₁.qr = s₂.qr ∧ s₁.qg = s₂.qg ∧ s₁.qb = s₂.qb ∧ s₁.qa = s₂.qa ∧
    (∀ i, 1 ≤ i → i ≤ 255 → s₁.pal.entry i = s₂.pal.entry i) ∧ s₁.pal.entry 0 ≠ s₂.pal.entry 0 := by
  refine ⟨⟨_, _, rfl, rfl⟩, ⟨_, _, rfl, rfl⟩, by decide +kernel, by decide +kernel, rfl, rfl, rfl, rfl, ?_, ?_⟩
  · intro i h1 h2
    have h0 : i ≠ 0 := by omega
    simp [pixel, paletteBut_entry, h0, h2]
  · simp [pixel, paletteBut_entry, white]

/-- A chain of comparators over the candidates from the last down to the first. -/
def chain : CompareTree := (List.range' 1 254).foldr (fun i t => .node (.leaf i) t) (.leaf 255)

theorem witness_ComparatorTreeEqualsScan : chain.leaves.Perm (List.range' 1 255) :=
  List.Perm.of_eq (by decide +kernel)

theorem witness_RefusalChangesFourItems :
    ∃ t, Instr.palLoad.space = .command ∧ exec .palLoad State.reset = .next t ∧ t.result ≠ 0x00#8 :=
  ⟨_, rfl, rfl, by decide +kernel⟩

theorem witness_OkKeepsStickyError :
    (∃ t, Instr.rleDec.space = .command ∧ exec .rleDec State.reset = .next t ∧ t.result = 0x00#8) ∧
    (∃ t, Instr.clrErr.space = .command ∧ exec .clrErr State.reset = .next t ∧ t.result = 0x00#8) :=
  ⟨⟨_, rfl, rfl, by decide +kernel⟩, ⟨_, rfl, rfl, by decide +kernel⟩⟩

theorem witness_ResultOfEachCommand :
    (Instr.cmdReserved 0xFF#8).space = .command ∧ Instr.cqPix.space = .command := by decide

theorem witness_NoInstructionWritesAnOperandRegister : ∃ t, exec (.lit 0x41#8) (decoding [0x41#8] 1) = .next t := ⟨_, rfl⟩

theorem witness_EachInstructionWritesItsSpaceOnly :
    (∃ t, exec .rleEnc (encoding [0x41#8]) = .next t) ∧
    (Instr.cqNear.space = .command ∧ Instr.cqNear ≠ .rleDec ∧ Instr.cqNear ≠ .rleEnc) := ⟨⟨_, rfl⟩, by decide⟩

theorem witness_PaletteChangesOnlyByLoadOrRst :
    ∃ t, step (busyWith { State.reset with plen := 768#AW } 0x01#8 .command) = .next t := ⟨_, rfl⟩

/-- The highest operand register, the highest read-only register, and `CMD`, each with the largest value it takes. -/
theorem witness_HostWriteOfARegister :
    (registerWidth 0x0F#8 = some 8 ∧ 255 < 2 ^ 8 ∧ (0x0F#8 : Byte).toNat ∈ [0x03, 0x04, 0x05, 0x09, 0x0C, 0x0D, 0x0E, 0x0F]) ∧
    (registerWidth 0x0B#8 = some 33 ∧ 2 ^ 33 - 1 < 2 ^ 33 ∧
      (0x0B#8 : Byte).toNat ∈ [0x01, 0x02, 0x06, 0x07, 0x08, 0x0A, 0x0B, 0x10]) ∧
    (registerWidth 0x00#8 = some 8 ∧ (0x00#8 : Byte).toNat = 0) := by decide

theorem witness_HostReadOfARegister :
    ((0x10#8 : Byte).toNat ≤ 0x10 ∧ (0x10#8 : Byte).toNat ≠ 0) ∧ ((0x00#8 : Byte).toNat ≤ 0x10 ∧ (0x00#8 : Byte).toNat = 0) := by decide

theorem witness_HostMovesWithoutMeaningAreRefused :
    0x11 ≤ (0x11#8 : Byte).toNat ∧ (registerWidth 0x0C#8 = some 8 ∧ 2 ^ 8 ≤ 256) ∧ State.reset.params.cap .din ≤ 2 ^ 32 - 1 := by decide

theorem witness_HostByteWriteIsPlainStorage : 2 ^ 33 - 3 < State.reset.params.cap .eout := by decide

theorem witness_RstMayBeRaisedAtAnyTime :
    (let s := { busyWith State.reset 0x02#8 .command with host := [.rstAtOnce] }
     s.host = .rstAtOnce :: [] ∧ s.busy = true) ∧
    (let s := { State.reset with host := [.rst] }
     s.host = .rst :: [] ∧ s.busy = false) := by decide +kernel

/-- A state between two tokens of `RLE.DEC` with every extent small and one byte listed at the end of its space. -/
def midDecode : State :=
  { busyWith { decoding [0x41#8, 0xC3#8, 0x07#8, 0x42#8] 4 with params := small } 0x02#8 .token with
    stage := .decoding
    dipos := 1#AW
    dopos := 1#AW
    dout := [(3, 0x00#8)] }

theorem witness_EveryStepKeepsInvariant : midDecode.Inv ∧ ∃ t, step midDecode = .next t :=
  ⟨{ params := ⟨by decide, by decide, by decide, by decide, by decide, by decide⟩
     memory := fun sp => by cases sp <;> decide +kernel
     statusReserved := by decide +kernel
     flagsReserved := by decide +kernel
     resultCode := by decide +kernel
     doneIdle := by decide +kernel
     refusalSticks := by decide +kernel
     stageBusy := by decide +kernel
     decoder := fun _ => ⟨by decide +kernel, by decide +kernel, by decide +kernel, by decide +kernel⟩
     encoder := fun h => absurd h (by decide +kernel) }, _, rfl⟩

theorem witness_BusyBlockEndsItsCommand :
    let s := busyWith State.reset 0xFF#8 .command
    s.busy = true ∧ s.stage = .whole ∧ s.params.grain = .command ∧ s.HostWaits := by decide +kernel

theorem witness_TokenStepsOfDecodeEqualTheCommand :
    let s := busyWith (decoding [0x41#8] 2) 0x02#8 .token
    ∃ t, s.busy = true ∧ s.stage = .whole ∧ s.params.grain = .token ∧ s.HostWaits ∧
      decodeCommand s.cmd = .rleDec ∧ exec .rleDec s = .next t :=
  ⟨_, by decide +kernel, rfl, rfl, by decide +kernel, by decide +kernel, rfl⟩

theorem witness_TokenStepsOfEncodeEqualTheCommand :
    let s := busyWith (encoding [0x41#8]) 0x03#8 .token
    ∃ t, s.busy = true ∧ s.stage = .whole ∧ s.params.grain = .token ∧ s.HostWaits ∧
      decodeCommand s.cmd = .rleEnc ∧ exec .rleEnc s = .next t :=
  ⟨_, by decide +kernel, rfl, rfl, by decide +kernel, by decide +kernel, rfl⟩

/-- The offsets of the well-known PCX layout (93_implementation_defined.md G3). -/
def usualLayout : HostReference.HeaderLayout := ⟨12, 14, 68⟩

/-- Both ends of the dimensions, and the usual layout beside one that ends at the record's last byte. -/
theorem witness_HeaderRoundTrip :
    (1 ≤ 1 ∧ 1 ≤ 65536) ∧ (1 ≤ 65536 ∧ 65536 ≤ 65536) ∧ 65534 ≤ 65534 ∧ 65535 ≤ 65535 ∧ usualLayout.Legal ∧
    (⟨12, 64, 127⟩ : HostReference.HeaderLayout).Legal ∧
    (16 < 128 ∧ 16 ∉ HostReference.placedOffsets ∧ 16 ∉ usualLayout.offsets) := by decide

/-- S7: the placed fields of the header of a 200 by 150 image, and what `parse` gives. -/
theorem test_header_S7 :
    (HostReference.build usualLayout 200 150).take 12 =
      [0x0A#8, 0x05#8, 0x01#8, 0x08#8, 0x00#8, 0x00#8, 0x00#8, 0x00#8, 0xC7#8, 0x00#8, 0x95#8, 0x00#8] ∧
    ((HostReference.build usualLayout 200 150).drop 66).take 2 = [0xC8#8, 0x00#8] ∧
    (HostReference.parse (HostReference.build usualLayout 200 150)).toOption.map
      (fun h => (h.width, h.height, h.decodedSize)) = some (200, 150, 30000) := by decide +kernel

/-- S8: an all-black opaque raster of 4 by 4 pixels. -/
def black4 : HostReference.Raster := ⟨4, 4, List.replicate 16 ⟨0#8, 0#8, 0#8, 255#8⟩⟩

/-- S8, decode path: the file of the one token `[0xC0|16, 0x01]` gives the raster back, whichever slice is decoded. -/
theorem test_decodePath_S8 :
    let file := HostReference.build usualLayout 4 4 ++ [0xD0#8, 0x01#8] ++
      0x0C#8 :: ([9#8, 9#8, 9#8, 0#8, 0#8, 0#8] ++ List.replicate 762 0xFF#8)
    (HostReference.decodePath .toEndOfFile file).toOption = some black4 ∧
      (HostReference.decodePath .toPaletteBlock file).toOption = some black4 := by decide +kernel

/-- S8, encode path: the RLE stage makes the one token of a buffer of all 1s. -/
theorem test_encodedBytes_S8 : encodedBytes (List.replicate 16 1#8) = [0xD0#8, 0x01#8] := by decide +kernel

end Sys2Proof.Tests
end

/-! # Proofs, scope (00_scope.md): what one step runs, that stepping a command by token gives the whole command, and that
every step keeps the invariant -/

namespace Sys2Proof

/-! ### The decoder answers tokens, `CMD` holds commands -/

theorem decodeToken_completes {bytes : List Byte} (h : bytes ≠ []) : ∃ i rest, decodeToken bytes = .ok (i, rest) := by
  match bytes with
  | [c] => exact ⟨_, _, rfl⟩
  | c :: v :: rest =>
    by_cases hc : isRunMarker c = true
    · exact ⟨_, _, by rw [decodeToken, if_pos hc]⟩
    · exact ⟨_, _, by rw [decodeToken, if_neg hc]⟩

theorem decodeToken_space {bytes rest : List Byte} {i : Instr} (h : decodeToken bytes = .ok (i, rest)) :
    i.space = .token := by
  obtain ⟨c, -, -, ⟨-, rfl⟩ | ⟨-, rfl⟩⟩ | ⟨c, v, tail, -, ⟨-, -, ⟨-, rfl⟩ | ⟨-, rfl⟩⟩ | ⟨-, -, rfl⟩⟩ := decodeToken_cases h <;>
    rfl

theorem decodeCommand_space (c : Byte) : (decodeCommand c).space = .command := by
  unfold decodeCommand
  split <;> rfl

/-- A token of the encoder takes one or two bytes (R104). -/
theorem encode_runToken_length_le (n : Nat) (v : Byte) : (encode (runToken n v)).length ≤ 2 := by
  by_cases h : 1 < n ∨ isRunMarker v = true
  · simp [runToken, h, encode]
  · simp [runToken, h, encode]

/-- A cursor that stays inside its width moves by exactly what is added. -/
theorem toNat_add_ofNat_of_lt {w : Nat} (x : BitVec w) {n : Nat} (h : x.toNat + n < 2 ^ w) :
    (x + BitVec.ofNat w n).toNat = x.toNat + n := by
  rw [BitVec.toNat_add, BitVec.toNat_ofNat, Nat.add_mod_mod, Nat.mod_eq_of_lt h]

end Sys2Proof

namespace Sys2Proof.Machine

/-! ### One step of a busy block -/

theorem step_of_busy {s : State} (hbusy : s.busy = true) (hwait : s.HostWaits) : step s = blockMove s := by
  obtain ⟨hrst, hpoll⟩ := hwait
  unfold step nextMove
  split
  · next hs => simp [hs] at hrst
  · next hs => simp [hs] at hpoll
  · rw [if_pos hbusy]

theorem commandMove_eq_exec {s : State}
    (h : s.params.grain = .command ∨ (decodeCommand s.cmd ≠ .rleDec ∧ decodeCommand s.cmd ≠ .rleEnc)) :
    commandMove s = exec (decodeCommand s.cmd) s := by
  unfold commandMove
  split
  · next hg hd => simp [hg, hd] at h
  · next hg hd => simp [hg, hd] at h
  · rfl

theorem run_one {s t : State} (h : step s = .next t) : core.run 1 s = .next t := by
  simp [Host.Core.run, core, h]

theorem run_succ {s u : State} (k : Nat) (h : step s = .next u) : core.run (k + 1) s = core.run k u := by
  simp [Host.Core.run, core, h]

/-! ### One token of the decoder -/

theorem exec_of_token {i : Instr} (h : i.space = .token) (s : State) : exec i s = .next (ifInterpreted (tokenEffect i) s) := by
  cases i with
  | lit | run | run0 | mark => rfl
  | _ => cases h

/-- Running the decoded token is `DecStep` (R84). -/
theorem exec_decoded {s : State} {i : Instr} {rest : List Byte} (ha : s.decoderActive)
    (h : decodeToken s.tokenBytes = .ok (i, rest)) : exec i s = .next (decStep s) := by
  rw [exec_of_token (decodeToken_space h), ifInterpreted, if_pos ha]
  simp only [decStep, h]

theorem tokenMove_of_active {s : State} (ha : s.decoderActive) : tokenMove s = .next (decStep s) := by
  have hne : s.tokenBytes ≠ [] := by
    obtain ⟨-, hb⟩ | ⟨-, hb⟩ := tokenBytes_cases ha <;> simp [hb]
  obtain ⟨i, rest, hi⟩ := decodeToken_completes hne
  simp only [tokenMove, if_pos ha, hi, exec_decoded ha hi]

/-- The frame of `DecStep`: it writes the cursors, `DFLAGS` and `DOUT` alone. -/
theorem decStep_eq {s : State} (ha : s.decoderActive) : decStep s =
    { s with
      dipos := (decStep s).dipos
      dopos := (decStep s).dopos
      dflags := (decStep s).dflags
      dout := (decStep s).dout } := by
  obtain ⟨c, -, -, h⟩ | ⟨c, -, -, -, h⟩ | ⟨c, v, -, -, -, -, h⟩ := decStep_cases ha <;> rw [h] <;> rfl

/-- `DecStep` consumes at least one byte, and neither cursor passes its bound (R93). -/
theorem decStep_cursors {s : State} (ha : s.decoderActive) :
    s.dipos.toNat < (decStep s).dipos.toNat ∧ (decStep s).dipos.toNat ≤ s.dilen.toNat ∧
      (decStep s).dopos.toNat ≤ s.dsize.toNat := by
  obtain ⟨hout, hin⟩ := ha
  have hdilen := s.dilen.isLt
  have hdsize := s.dsize.isLt
  have hone : (s.dipos + 1#AW).toNat = s.dipos.toNat + 1 := toNat_add_ofNat_of_lt _ (by omega)
  obtain ⟨c, -, -, h⟩ | ⟨c, -, -, -, h⟩ | ⟨c, v, -, -, -, htwo, h⟩ := decStep_cases ⟨hout, hin⟩
  · have hnext : (s.dopos + 1#AW).toNat = s.dopos.toNat + 1 := toNat_add_ofNat_of_lt _ (by omega)
    rw [h, literalEffect_dipos, literalEffect_dopos]
    omega
  · rw [h, danglingEffect_dipos, danglingEffect_dopos]
    omega
  · have hroom : min (countField c).toNat s.outputRoom ≤ s.dsize.toNat - s.dopos.toNat := Nat.min_le_right _ _
    have hpair : (s.dipos + 2#AW).toNat = s.dipos.toNat + 2 := toNat_add_ofNat_of_lt _ (by omega)
    have hfill : (s.dopos + BitVec.ofNat AW (min (countField c).toNat s.outputRoom)).toNat =
        s.dopos.toNat + min (countField c).toNat s.outputRoom := toNat_add_ofNat_of_lt _ (by omega)
    rw [h, runEffect_dipos, runEffect_dopos]
    omega

theorem flagsAfterRun_lt_16 (b : Byte) (n m : Nat) (h : b.toNat < 16) : (flagsAfterRun b n m).toNat < 16 := by
  have hzero : (if n = 0 then withBit b 2 true else b).toNat < 16 := by
    split
    · exact withBit_lt_16 b 2 true (by decide) h
    · exact h
  dsimp only [flagsAfterRun]
  split
  · exact withBit_lt_16 _ 1 true (by decide) hzero
  · exact hzero

theorem decStep_dflags_lt_16 {s : State} (ha : s.decoderActive) (h : s.dflags.toNat < 16) :
    (decStep s).dflags.toNat < 16 := by
  obtain ⟨c, -, -, hd⟩ | ⟨c, -, -, -, hd⟩ | ⟨c, v, -, -, -, -, hd⟩ := decStep_cases ha <;> rw [hd]
  · exact h
  · exact withBit_lt_16 _ 3 true (by decide) h
  · exact flagsAfterRun_lt_16 _ _ _ h

theorem decStep_dout_legal {s : State} (ha : s.decoderActive) (hw : s.dout.wf = true) {cap : Nat}
    (hin : s.dout.within cap = true) (hcap : s.dsize.toNat ≤ cap) :
    (decStep s).dout.wf = true ∧ (decStep s).dout.within cap = true := by
  have hroom := ha.1
  obtain ⟨c, -, -, hd⟩ | ⟨c, -, -, -, hd⟩ | ⟨c, v, -, -, -, -, hd⟩ := decStep_cases ha <;> rw [hd]
  · exact ⟨Memory.put_wf _ _ _ hw, Memory.put_within _ _ _ _ hin (by omega)⟩
  · exact ⟨hw, hin⟩
  · have hlen : min (countField c).toNat s.outputRoom ≤ s.dsize.toNat - s.dopos.toNat := Nat.min_le_right _ _
    exact ⟨Memory.fill_wf _ _ _ _ hw, Memory.fill_within _ _ _ _ _ hin (by omega)⟩

/-! ### One token of the encoder -/

theorem extendRun_bounds (byteOf : Nat → Byte) (len p : Nat) (v : Byte) (fuel n : Nat) (h : p + n ≤ len) :
    n ≤ extendRun byteOf len p v fuel n ∧ p + extendRun byteOf len p v fuel n ≤ len := by
  induction fuel generalizing n with
  | zero => exact ⟨Nat.le_refl n, h⟩
  | succ fuel ih =>
    unfold extendRun
    split
    · next hmore =>
      obtain ⟨hlow, hhigh⟩ := ih (n + 1) hmore.1
      exact ⟨by omega, hhigh⟩
    · exact ⟨Nat.le_refl n, h⟩

/-- A run has at least one byte and ends with the input (R103). -/
theorem encoderRun_bounds {s : State} (ha : s.encoderActive) :
    1 ≤ s.encoderRun ∧ s.eipos.toNat + s.encoderRun ≤ s.eilen.toNat :=
  extendRun_bounds _ _ _ _ _ _ ha

theorem encStep_eipos_toNat {s : State} (ha : s.encoderActive) :
    (encStep s).eipos.toNat = s.eipos.toNat + s.encoderRun := by
  have hrun := encoderRun_bounds ha
  have hlen := s.eilen.isLt
  rw [encStep_eipos, toNat_add_ofNat_of_lt _ (by omega)]

theorem encoderToken_length_le (s : State) : (encode s.encoderToken).length ≤ 2 := encode_runToken_length_le _ _

/-! ### The field `stage` does not matter to a command's work

The whole command runs its loop at `stage = whole`, the stepped one at `decoding` or `encoding`. -/

theorem tokenEffect_withStage (i : Instr) (s : State) (g : Stage) :
    tokenEffect i { s with stage := g } = { tokenEffect i s with stage := g } := by
  have hmarker (n : Nat) (v : Byte) : markerEffect n v { s with stage := g } = { markerEffect n v s with stage := g } := by
    unfold markerEffect
    split <;> rfl
  cases i with
  | run n v => exact hmarker n.toNat v
  | run0 v => exact hmarker 0 v
  | _ => rfl

theorem decStep_withStage (s : State) (g : Stage) : decStep { s with stage := g } = { decStep s with stage := g } := by
  have hbytes : State.tokenBytes { s with stage := g } = s.tokenBytes := rfl
  unfold decStep
  rw [hbytes]
  split
  · exact tokenEffect_withStage _ s g
  · rfl

theorem decodeLoop_withStage (fuel : Nat) (s : State) (g : Stage) :
    decodeLoop fuel { s with stage := g } = { decodeLoop fuel s with stage := g } := by
  induction fuel generalizing s with
  | zero => rfl
  | succ fuel ih =>
    unfold decodeLoop
    split
    · rw [decStep_withStage, ih]
    · rfl

theorem encodeLoop_withStage (fuel : Nat) (s : State) (g : Stage) :
    encodeLoop fuel { s with stage := g } = { encodeLoop fuel s with stage := g } := by
  induction fuel generalizing s with
  | zero => rfl
  | succ fuel ih =>
    unfold encodeLoop
    split
    · exact ih (encStep s)
    · rfl

/-- The whole `RLE.DEC` is its stepped beginning, the loop and the end. -/
theorem execRleDec_eq (s : State) : execRleDec s = .next
    (if s.decodeTooLong then decodeBegin s else decodeFinish (decodeLoop s.dilen.toNat (decodeBegin s))) := by
  unfold execRleDec decodeBegin
  split
  · rfl
  · rw [decodeLoop_withStage _ (decodeStart s) .decoding]
    rfl

/-- The whole `RLE.ENC` is its stepped beginning, the loop and the end. -/
theorem execRleEnc_eq (s : State) : execRleEnc s = .next
    (if s.encodeTooLong then encodeBegin s else (encodeLoop s.eilen.toNat (encodeBegin s)).complete) := by
  unfold execRleEnc encodeBegin
  split
  · rfl
  · rw [encodeLoop_withStage _ (encodeStart s) .encoding]
    rfl

/-! ### Stepping a loop token by token -/

section SteppedLoop

variable {Between : State → Prop} {active : State → Prop} [DecidablePred active] {body finish : State → State}
  {left : State → Nat} {loop : Nat → State → State}

/-- A command stepped by token: while the block stands `Between` two tokens and the loop test holds, a step runs the body,
which takes at least one of the bytes `left`; where the test fails, a step ends the command. Such steps reach the end state of
the whole loop, given fuel for every byte left. -/
theorem run_reaches_loopEnd
    (hzero : ∀ u, loop 0 u = u)
    (hsucc : ∀ n u, loop (n + 1) u = if active u then loop n (body u) else u)
    (hbody : ∀ u, Between u → active u → step u = .next (body u) ∧ Between (body u) ∧ left (body u) < left u)
    (hend : ∀ u, Between u → ¬ active u → step u = .next (finish u))
    (fuel : Nat) (u : State) (hu : Between u) (hleft : left u ≤ fuel) :
    ∃ k, 1 ≤ k ∧ k ≤ fuel + 1 ∧ core.run k u = .next (finish (loop fuel u)) := by
  induction fuel generalizing u with
  | zero =>
    have hstop : ¬ active u := fun ha => by
      have := (hbody u hu ha).2.2
      omega
    exact ⟨1, by omega, by omega, by rw [run_one (hend u hu hstop), hzero]⟩
  | succ fuel ih =>
    by_cases ha : active u
    · obtain ⟨hstep, hnext, hless⟩ := hbody u hu ha
      obtain ⟨k, hk, hkf, hrun⟩ := ih (body u) hnext (by omega)
      exact ⟨k + 1, by omega, by omega, by rw [run_succ k hstep, hrun, hsucc, if_pos ha]⟩
    · exact ⟨1, by omega, by omega, by rw [run_one (hend u hu ha), hsucc, if_neg ha]⟩

end SteppedLoop

/-- The block stands at `g`, its command running, and the host waits. -/
structure State.RunningAt (g : Stage) (s : State) : Prop where
  busy : s.busy = true
  stage : s.stage = g
  waits : s.HostWaits

theorem State.RunningAt.step_eq {g : Stage} {s : State} (h : s.RunningAt g) : step s = blockMove s :=
  step_of_busy h.busy h.waits

theorem decStep_runningAt {s : State} (h : s.RunningAt .decoding) (ha : s.decoderActive) :
    (decStep s).RunningAt .decoding := by
  rw [decStep_eq ha]
  exact ⟨h.busy, h.stage, h.waits⟩

theorem run_reaches_decodeFinish (fuel : Nat) (u : State) (hu : u.RunningAt .decoding)
    (hleft : u.dilen.toNat - u.dipos.toNat ≤ fuel) :
    ∃ k, 1 ≤ k ∧ k ≤ fuel + 1 ∧ core.run k u = .next (decodeFinish (decodeLoop fuel u)) := by
  refine run_reaches_loopEnd (active := State.decoderActive) (body := decStep)
    (left := fun u => u.dilen.toNat - u.dipos.toNat) (fun _ => rfl) (fun _ _ => rfl) ?_ ?_ fuel u hu hleft
  · intro u hu ha
    have hdilen : (decStep u).dilen = u.dilen := by rw [decStep_eq ha]
    have hcursors := decStep_cursors ha
    refine ⟨?_, decStep_runningAt hu ha, by rw [hdilen]; omega⟩
    rw [hu.step_eq, blockMove, hu.stage]
    exact tokenMove_of_active ha
  · intro u hu ha
    rw [hu.step_eq, blockMove, hu.stage]
    exact if_neg ha

theorem run_reaches_encodeFinish (fuel : Nat) (u : State) (hu : u.RunningAt .encoding)
    (hleft : u.eilen.toNat - u.eipos.toNat ≤ fuel) :
    ∃ k, 1 ≤ k ∧ k ≤ fuel + 1 ∧ core.run k u = .next (encodeLoop fuel u).complete := by
  refine run_reaches_loopEnd (active := State.encoderActive) (body := encStep) (finish := State.complete)
    (left := fun u => u.eilen.toNat - u.eipos.toNat) (fun _ => rfl) (fun _ _ => rfl) ?_ ?_ fuel u hu hleft
  · intro u hu ha
    have hrun := encoderRun_bounds ha
    refine ⟨?_, ⟨hu.busy, hu.stage, hu.waits⟩, by rw [encStep_eilen, encStep_eipos_toNat ha]; omega⟩
    rw [hu.step_eq, blockMove, hu.stage]
    exact congrArg Host.Outcome.next (if_pos ha)
  · intro u hu ha
    rw [hu.step_eq, blockMove, hu.stage]
    exact congrArg Host.Outcome.next (if_neg ha)

/-- A stepped command ends with the step that begins it where it is refused, else after the steps of its loop. -/
theorem run_reaches_commandEnd {refused : Prop} {s b t : State} {n : Nat} (hfirst : step s = .next b)
    (hrefused : refused → b = t)
    (hloop : ¬ refused → ∃ k, 1 ≤ k ∧ k ≤ n + 1 ∧ core.run k b = .next t) :
    ∃ k, 1 ≤ k ∧ k ≤ n + 2 ∧ core.run k s = .next t := by
  by_cases h : refused
  · exact ⟨1, by omega, by omega, by rw [run_one hfirst, hrefused h]⟩
  · obtain ⟨k, hk, hkn, hrun⟩ := hloop h
    exact ⟨k + 1, by omega, by omega, by rw [run_succ k hfirst, hrun]⟩

end Sys2Proof.Machine

namespace Sys2Proof.Machine

/-- Settles O6: a busy block at the start of a command makes the command's move, which is `exec` of the code in `CMD`. -/
theorem stepRunsTheCommandInCmd : Obligations.StepRunsTheCommandInCmd := by
  intro s i hbusy hstage hwait hgrain hdecode
  obtain rfl : decodeCommand s.cmd = i := by simpa [decode] using hdecode
  rw [step_of_busy hbusy hwait, blockMove, hstage]
  exact commandMove_eq_exec hgrain

/-- Settles O7: a block between two tokens runs `DecStep`, the meaning of the token at `DIPOS`. -/
theorem stepRunsTheTokenAtDipos : Obligations.StepRunsTheTokenAtDipos := by
  intro s i rest hbusy hstage ha hwait hdecode
  rw [step_of_busy hbusy hwait, blockMove, hstage, exec_decoded ha hdecode]
  exact tokenMove_of_active ha

/-- Settles O57: the first step begins the command, and `run_reaches_decodeFinish` gives the steps of the loop. -/
theorem tokenStepsOfDecodeEqualTheCommand : Obligations.TokenStepsOfDecodeEqualTheCommand := by
  intro s t hbusy hstage hgrain hwait hcmd hexec
  have hfirst : step s = .next (decodeBegin s) := by
    rw [step_of_busy hbusy hwait, blockMove, hstage]
    simp only [commandMove, hgrain, hcmd]
  rw [exec, execRleDec_eq] at hexec
  obtain rfl := Host.Outcome.next.inj hexec
  refine run_reaches_commandEnd (refused := s.decodeTooLong) hfirst (fun hlong => (if_pos hlong).symm) fun hlong => ?_
  have hbegin : decodeBegin s = { decodeStart s with stage := .decoding } := if_neg hlong
  rw [if_neg hlong, hbegin]
  exact run_reaches_decodeFinish _ _ ⟨hbusy, rfl, hwait⟩ (Nat.sub_le _ _)

/-- Settles O58: the first step begins the command, and `run_reaches_encodeFinish` gives the steps of the loop. -/
theorem tokenStepsOfEncodeEqualTheCommand : Obligations.TokenStepsOfEncodeEqualTheCommand := by
  intro s t hbusy hstage hgrain hwait hcmd hexec
  have hfirst : step s = .next (encodeBegin s) := by
    rw [step_of_busy hbusy hwait, blockMove, hstage]
    simp only [commandMove, hgrain, hcmd]
  rw [exec, execRleEnc_eq] at hexec
  obtain rfl := Host.Outcome.next.inj hexec
  refine run_reaches_commandEnd (refused := s.encodeTooLong) hfirst (fun hlong => (if_pos hlong).symm) fun hlong => ?_
  have hbegin : encodeBegin s = { encodeStart s with stage := .encoding } := if_neg hlong
  rw [if_neg hlong, hbegin]
  exact run_reaches_encodeFinish _ _ ⟨hbusy, rfl, hwait⟩ (Nat.sub_le _ _)

end Sys2Proof.Machine

namespace Sys2Proof.Machine

/-! ### The invariant -/

/-- The part of the invariant that holds whatever command runs: what is left to show of a command that ends. -/
structure State.Sound (s : State) : Prop where
  params : s.params.Legal
  memory : s.MemoryLegal
  statusReserved : s.status.toNat < 16
  flagsReserved : s.dflags.toNat < 16

theorem State.Inv.sound {s : State} (h : s.Inv) : s.Sound :=
  ⟨h.params, h.memory, h.statusReserved, h.flagsReserved⟩

theorem State.Inv.stage_of_idle {s : State} (h : s.Inv) (hidle : s.busy = false) : s.stage = .whole := by
  by_contra hstage
  simp [h.stageBusy hstage] at hidle

theorem statusEnded_lt_16 {b : Byte} (h : b.toNat < 16) : (statusEnded b).toNat < 16 :=
  withBit_lt_16 _ 1 true (by decide) (withBit_lt_16 b 0 false (by decide) h)

theorem Result.code_le_four (r : Result) : r.code.toNat ≤ 4 := by
  cases r <;> decide

theorem State.Sound.complete {s : State} (h : s.Sound) : s.complete.Inv where
  params := h.params
  memory := h.memory
  statusReserved := statusEnded_lt_16 h.statusReserved
  flagsReserved := h.flagsReserved
  resultCode := Result.code_le_four .ok
  doneIdle := fun _ => s.complete_busy
  refusalSticks := fun hr => absurd rfl hr
  stageBusy := fun hs => absurd rfl hs
  decoder := nofun
  encoder := nofun

theorem State.Sound.raise {s : State} (h : s.Sound) (r : Result) : (s.raise r).Inv where
  params := h.params
  memory := h.memory
  statusReserved := statusEnded_lt_16 (withBit_lt_16 _ 3 true (by decide) h.statusReserved)
  flagsReserved := h.flagsReserved
  resultCode := r.code_le_four
  doneIdle := fun _ => s.raise_busy r
  refusalSticks := fun _ => s.raise_esticky r
  stageBusy := fun hs => absurd rfl hs
  decoder := nofun
  encoder := nofun

/-! ### The moves of the host -/

/-- The invariant does not speak of the script or of what the host has read. -/
theorem State.Inv.withScript {s : State} (h : s.Inv) (host : List HostMove) (replies : List HostReply) (draws : Nat) :
    State.Inv { s with host := host, replies := replies, draws := draws } :=
  { h with
    decoder := fun hd =>
      have hlegal := h.decoder hd
      ⟨hlegal.input, hlegal.output, hlegal.consumed, hlegal.produced⟩
    encoder := fun he =>
      have hlegal := h.encoder he
      ⟨hlegal.input, hlegal.output, hlegal.consumed, hlegal.produced⟩ }

/-- On an idle block no operand is bound by a command. -/
theorem State.Inv.withOperands {s : State} (h : s.Inv) (hidle : s.busy = false) (plen dilen dsize eilen : Word)
    (qr qg qb qa : Byte) :
    State.Inv { s with
      plen := plen, dilen := dilen, dsize := dsize, eilen := eilen, qr := qr, qg := qg, qb := qb, qa := qa } :=
  have hwhole := h.stage_of_idle hidle
  { h with
    decoder := fun hd => absurd (hwhole.symm.trans hd) (by decide)
    encoder := fun he => absurd (hwhole.symm.trans he) (by decide) }

@[simp] theorem State.start_esticky (s : State) (c : Byte) : (s.start c).esticky = s.esticky := by
  simp only [State.esticky, State.start_status, statusStarted_getLsbD]; simp

theorem State.Inv.start {s : State} (h : s.Inv) (c : Byte) : (s.start c).Inv where
  params := h.params
  memory := h.memory
  statusReserved := withBit_lt_16 _ 1 false (by decide) (withBit_lt_16 _ 0 true (by decide) h.statusReserved)
  flagsReserved := h.flagsReserved
  resultCode := h.resultCode
  doneIdle := fun hd => absurd (s.start_done c) (by simp [hd])
  refusalSticks := fun hr => (s.start_esticky c).trans (h.refusalSticks hr)
  stageBusy := fun hs => absurd rfl hs
  decoder := nofun
  encoder := nofun

theorem State.Inv.writeRegister {s : State} (h : s.Inv) (hidle : s.busy = false) (num : Byte) (v : Nat) :
    (s.writeRegister num v).Inv := by
  unfold State.writeRegister
  split
  · exact h.start _
  all_goals exact h.withOperands hidle _ _ _ _ _ _ _ _

theorem State.MemoryLegal.writeByte {s : State} (h : s.MemoryLegal) {sp : ByteSpace} {a : Nat}
    (ha : a < s.params.cap sp) (v : Byte) : (s.writeByte sp a v).MemoryLegal := by
  intro sp'
  obtain ⟨hwf, hin⟩ := h sp'
  rw [State.writeByte_mem, State.writeByte_params]
  split
  · next heq =>
    subst heq
    exact ⟨Memory.put_wf _ _ _ hwf, Memory.put_within _ _ _ _ hin ha⟩
  · exact ⟨hwf, hin⟩

theorem State.Inv.writeByte {s : State} (h : s.Inv) (hidle : s.busy = false) {sp : ByteSpace} {a : Nat}
    (ha : a < s.params.cap sp) (v : Byte) : (s.writeByte sp a v).Inv := by
  have hwhole := h.stage_of_idle hidle
  have hmem := h.memory.writeByte ha v
  cases sp <;> exact
    { h with
      memory := hmem
      decoder := fun hd => absurd (hwhole.symm.trans hd) (by decide)
      encoder := fun he => absurd (hwhole.symm.trans he) (by decide) }

theorem State.Inv.afterRst {s : State} (h : s.Inv) : s.afterRst.Inv where
  params := h.params
  memory := fun sp => by cases sp <;> exact ⟨rfl, rfl⟩
  statusReserved := show (0#8 : Byte).toNat < 16 by decide
  flagsReserved := show (0#8 : Byte).toNat < 16 by decide
  resultCode := Result.code_le_four .ok
  doneIdle := fun _ => show (0#8 : Byte).getLsbD 0 = false by decide
  refusalSticks := fun hr => absurd rfl hr
  stageBusy := fun hs => absurd rfl hs
  decoder := nofun
  encoder := nofun

theorem hostMove_keeps_inv {m : HostMove} {s t : State} (h : s.Inv) (hidle : s.busy = false)
    (hmove : hostMove m s = .next t) : t.Inv := by
  obtain ⟨num, v, w, -, -, -, rfl⟩ | ⟨num, w, -, -, rfl⟩ | ⟨sp, a, v, -, ha, rfl⟩ | ⟨sp, a, -, -, rfl⟩ | ⟨-, rfl⟩ | ⟨-, rfl⟩ :=
    hostMove_cases hmove
  · exact h.writeRegister hidle num v
  · unfold State.countDraw
    split <;> exact h.withScript _ _ _
  · exact h.writeByte hidle ha v
  · exact h.withScript _ _ _
  · exact h.afterRst
  · exact h.withScript _ _ _

/-! ### The two stepped commands -/

theorem State.MemoryLegal.withDout {s : State} (h : s.MemoryLegal) {m : Memory}
    (hm : m.wf = true ∧ m.within s.params.doutCap = true) : State.MemoryLegal { s with dout := m }
  | .pin => h .pin
  | .din => h .din
  | .dout => hm
  | .ein => h .ein
  | .eout => h .eout

theorem State.MemoryLegal.withEout {s : State} (h : s.MemoryLegal) {m : Memory}
    (hm : m.wf = true ∧ m.within s.params.eoutCap = true) : State.MemoryLegal { s with eout := m }
  | .pin => h .pin
  | .din => h .din
  | .dout => h .dout
  | .ein => h .ein
  | .eout => hm

theorem decodeBegin_keeps_inv {s : State} (h : s.Inv) (hbusy : s.busy = true) : (decodeBegin s).Inv := by
  unfold decodeBegin
  split
  · exact h.sound.raise .badLength
  · next hfits =>
    have hin : s.dilen.toNat ≤ s.params.dinCap := by omega
    have hout : s.dsize.toNat ≤ s.params.doutCap := by omega
    have hdout := h.memory .dout
    exact
      { h with
        memory := h.memory.withDout
          ⟨Memory.fill_wf _ _ _ _ hdout.1, Memory.fill_within _ _ _ _ _ hdout.2 (by omega)⟩
        flagsReserved := show (0#8 : Byte).toNat < 16 by decide
        stageBusy := fun _ => hbusy
        decoder := fun _ => ⟨hin, hout, Nat.zero_le _, Nat.zero_le _⟩
        encoder := nofun }

theorem decStep_keeps_inv {s : State} (h : s.Inv) (hstage : s.stage = .decoding) (ha : s.decoderActive) : (decStep s).Inv := by
  obtain ⟨hin, hout, -, -⟩ := h.decoder hstage
  obtain ⟨-, hconsumed, hproduced⟩ := decStep_cursors ha
  have hdout := decStep_dout_legal ha (h.memory .dout).1 (h.memory .dout).2 hout
  have hflags := decStep_dflags_lt_16 ha h.flagsReserved
  rw [decStep_eq ha]
  exact
    { h with
      memory := h.memory.withDout hdout
      flagsReserved := hflags
      decoder := fun _ => ⟨hin, hout, hconsumed, hproduced⟩
      encoder := fun he => absurd (hstage.symm.trans he) (by decide) }

theorem decodeLoop_keeps_inv (fuel : Nat) {s : State} (h : s.Inv) (hstage : s.stage = .decoding) : (decodeLoop fuel s).Inv := by
  induction fuel generalizing s with
  | zero => exact h
  | succ fuel ih =>
    unfold decodeLoop
    split
    · next ha => exact ih (decStep_keeps_inv h hstage ha) (by rw [decStep_eq ha]; exact hstage)
    · exact h

theorem decodeFinish_keeps_inv {s : State} (h : s.Inv) : (decodeFinish s).Inv :=
  State.Sound.complete
    { params := h.params
      memory := h.memory
      statusReserved := h.statusReserved
      flagsReserved := withBit_lt_16 _ 0 _ (by decide) h.flagsReserved }

theorem encodeBegin_keeps_inv {s : State} (h : s.Inv) (hbusy : s.busy = true) : (encodeBegin s).Inv := by
  unfold encodeBegin
  split
  · exact h.sound.raise .badLength
  · next hfits =>
    have hin : s.eilen.toNat ≤ s.params.einCap := by omega
    have hout : 2 * s.eilen.toNat ≤ s.params.eoutCap := by omega
    exact
      { h with
        stageBusy := fun _ => hbusy
        decoder := nofun
        encoder := fun _ => ⟨hin, hout, Nat.zero_le _, Nat.zero_le _⟩ }

theorem encStep_keeps_inv {s : State} (h : s.Inv) (hstage : s.stage = .encoding) (ha : s.encoderActive) : (encStep s).Inv := by
  obtain ⟨hin, hout, -, hproduced⟩ := h.encoder hstage
  have heout := h.memory .eout
  have hrun := encoderRun_bounds ha
  have heipos := encStep_eipos_toNat ha
  have hlen := encoderToken_length_le s
  have hwidth := s.eilen.isLt
  have heolen : (encStep s).eolen.toNat = s.eolen.toNat + (encode s.encoderToken).length :=
    toNat_add_ofNat_of_lt _ (by omega)
  have hroom : s.eolen.toNat + (encode s.encoderToken).length ≤ s.params.eoutCap := by omega
  exact
    { h with
      memory := h.memory.withEout
        ⟨Memory.putAll_wf _ _ _ heout.1, Memory.putAll_within _ _ _ _ heout.2 hroom⟩
      decoder := fun hd => absurd (hstage.symm.trans hd) (by decide)
      encoder := fun _ => ⟨hin, hout, by rw [heipos]; exact hrun.2, by rw [heipos, heolen]; omega⟩ }

theorem encodeLoop_keeps_inv (fuel : Nat) {s : State} (h : s.Inv) (hstage : s.stage = .encoding) : (encodeLoop fuel s).Inv := by
  induction fuel generalizing s with
  | zero => exact h
  | succ fuel ih =>
    unfold encodeLoop
    split
    · next ha => exact ih (encStep_keeps_inv h hstage ha) hstage
    · exact h

/-! ### The commands -/

theorem execRleDec_keeps_inv {s t : State} (h : s.Inv) (hbusy : s.busy = true) (hexec : execRleDec s = .next t) : t.Inv := by
  have hbegin := decodeBegin_keeps_inv h hbusy
  rw [execRleDec_eq] at hexec
  obtain rfl := Host.Outcome.next.inj hexec
  split
  · exact hbegin
  · next hfits =>
    exact decodeFinish_keeps_inv (decodeLoop_keeps_inv _ hbegin (by rw [decodeBegin, if_neg hfits]))

theorem execRleEnc_keeps_inv {s t : State} (h : s.Inv) (hbusy : s.busy = true) (hexec : execRleEnc s = .next t) : t.Inv := by
  have hbegin := encodeBegin_keeps_inv h hbusy
  rw [execRleEnc_eq] at hexec
  obtain rfl := Host.Outcome.next.inj hexec
  split
  · exact hbegin
  · next hfits =>
    exact (encodeLoop_keeps_inv _ hbegin (by rw [encodeBegin, if_neg hfits])).sound.complete

/-- The palette file and `QIDX` are free, and `STATUS` takes any value whose reserved bits are 0. -/
theorem State.Sound.withResult {s : State} (h : s.Sound) (pal : Palette) (qidx : Byte) {status : Byte}
    (hstatus : status.toNat < 16) : State.Sound { s with pal := pal, qidx := qidx, status := status } :=
  { h with statusReserved := hstatus }

theorem execCommand_keeps_inv {i : Instr} (hi : i.space = .command) {s t : State} (h : s.Inv) (hbusy : s.busy = true)
    (hexec : exec i s = .next t) : t.Inv := by
  have hsound := h.sound
  cases i with
  | lit | run | run0 | mark => cases hi
  | rleDec => exact execRleDec_keeps_inv h hbusy hexec
  | rleEnc => exact execRleEnc_keeps_inv h hbusy hexec
  | palLoad =>
    obtain rfl := Host.Outcome.next.inj hexec
    split
    · exact hsound.raise _
    · exact (hsound.withResult _ _ (withBit_lt_16 _ 2 true (by decide) h.statusReserved)).complete
  | cqNear | cqPix =>
    obtain rfl := Host.Outcome.next.inj hexec
    split
    · exact hsound.raise _
    · exact (hsound.withResult _ _ h.statusReserved).complete
  | clrErr =>
    obtain rfl := Host.Outcome.next.inj hexec
    exact (hsound.withResult _ _ (withBit_lt_16 _ 3 false (by decide) h.statusReserved)).complete
  | cmdReserved c =>
    obtain rfl := Host.Outcome.next.inj hexec
    exact hsound.raise _

theorem blockMove_keeps_inv {s t : State} (h : s.Inv) (hbusy : s.busy = true) (hmove : blockMove s = .next t) : t.Inv := by
  obtain ⟨-, -, -, rfl⟩ | ⟨-, -, -, rfl⟩ | ⟨-, hexec⟩ | ⟨hstage, ha, i, rest, hi, hexec⟩ | ⟨-, -, rfl⟩ | ⟨hstage, ha, rfl⟩ |
    ⟨-, -, rfl⟩ := blockMove_cases hmove
  · exact decodeBegin_keeps_inv h hbusy
  · exact encodeBegin_keeps_inv h hbusy
  · exact execCommand_keeps_inv (decodeCommand_space _) h hbusy hexec
  · rw [exec_decoded ha hi] at hexec
    obtain rfl := Host.Outcome.next.inj hexec
    exact decStep_keeps_inv h hstage ha
  · exact decodeFinish_keeps_inv h
  · exact encStep_keeps_inv h hstage ha
  · exact h.sound.complete

/-- Settles O54, by the cases of a step: `rst`, a poll, the hold, a move of the host, a move of the block. -/
theorem everyStepKeepsInvariant : Obligations.EveryStepKeepsInvariant := by
  intro s t h hstep
  obtain ⟨rest, -, rfl⟩ | ⟨rest, -, rfl⟩ | ⟨-, -, rfl⟩ | ⟨m, rest, hidle, -, hmove⟩ | ⟨hbusy, hmove⟩ := step_cases hstep
  · exact (h.withScript rest _ _).afterRst
  · exact h.withScript rest _ _
  · exact h
  · exact hostMove_keeps_inv (h.withScript rest _ _) hidle hmove
  · exact blockMove_keeps_inv h hbusy hmove

end Sys2Proof.Machine

/-! # Proofs, state (10_state.md): what an instruction may write, who changes the palette, what the host reads and writes by
register number, and the state after reset -/

namespace Sys2Proof.Machine

/-! ### What an instruction may write -/

/-- The frame of a token: the cursors, `DFLAGS` and `DOUT` alone. -/
theorem tokenEffect_eq (i : Instr) (s : State) : tokenEffect i s =
    { s with
      dipos := (tokenEffect i s).dipos
      dopos := (tokenEffect i s).dopos
      dflags := (tokenEffect i s).dflags
      dout := (tokenEffect i s).dout } := by
  have hmarker (n : Nat) (v : Byte) : markerEffect n v s =
      { s with
        dipos := (markerEffect n v s).dipos
        dopos := (markerEffect n v s).dopos
        dflags := (markerEffect n v s).dflags
        dout := (markerEffect n v s).dout } := by
    unfold markerEffect
    split <;> rfl
  cases i with
  | run n v => exact hmarker n.toNat v
  | run0 v => exact hmarker 0 v
  | _ => rfl

/-- The frame of the loop of `RLE.DEC` (R83). -/
theorem decodeLoop_eq (fuel : Nat) (s : State) : decodeLoop fuel s =
    { s with
      dipos := (decodeLoop fuel s).dipos
      dopos := (decodeLoop fuel s).dopos
      dflags := (decodeLoop fuel s).dflags
      dout := (decodeLoop fuel s).dout } := by
  induction fuel generalizing s with
  | zero => rfl
  | succ fuel ih =>
    unfold decodeLoop
    split
    · next ha => rw [ih (decStep s), decStep_eq ha]
    · rfl

/-- The frame of the loop of `RLE.ENC` (R105). -/
theorem encodeLoop_eq (fuel : Nat) (s : State) : encodeLoop fuel s =
    { s with
      eipos := (encodeLoop fuel s).eipos
      eolen := (encodeLoop fuel s).eolen
      eout := (encodeLoop fuel s).eout } := by
  induction fuel generalizing s with
  | zero => rfl
  | succ fuel ih =>
    unfold encodeLoop
    split
    · rw [ih (encStep s)]; rfl
    · rfl

@[simp] theorem decodeLoop_pal (fuel : Nat) (s : State) : (decodeLoop fuel s).pal = s.pal := by
  rw [decodeLoop_eq]

@[simp] theorem decodeLoop_status (fuel : Nat) (s : State) : (decodeLoop fuel s).status = s.status := by
  rw [decodeLoop_eq]

@[simp] theorem encodeLoop_pal (fuel : Nat) (s : State) : (encodeLoop fuel s).pal = s.pal := by
  rw [encodeLoop_eq]

@[simp] theorem encodeLoop_status (fuel : Nat) (s : State) : (encodeLoop fuel s).status = s.status := by
  rw [encodeLoop_eq]

/-- The frame of a token executed on its own, interpreted or not. -/
theorem exec_token_eq {i : Instr} (hi : i.space = .token) {s t : State} (h : exec i s = .next t) : t =
    { s with
      dipos := t.dipos
      dopos := t.dopos
      dflags := t.dflags
      dout := t.dout } := by
  rw [exec_of_token hi, ifInterpreted] at h
  obtain rfl := Host.Outcome.next.inj h
  split
  · exact tokenEffect_eq i s
  · rfl

/-- The frame of every instruction: what the block writes, and no register of the host's, no input space and nothing outside
the block. -/
theorem exec_eq {i : Instr} {s t : State} (h : exec i s = .next t) : t =
    { s with
      status := t.status
      result := t.result
      dipos := t.dipos
      dopos := t.dopos
      dflags := t.dflags
      eipos := t.eipos
      eolen := t.eolen
      qidx := t.qidx
      pal := t.pal
      dout := t.dout
      eout := t.eout
      stage := t.stage } := by
  cases i with
  | lit | run | run0 | mark => rw [exec_token_eq rfl h]
  | rleDec =>
    obtain rfl := Host.Outcome.next.inj h
    split
    · rfl
    · rw [decodeLoop_eq]; rfl
  | rleEnc =>
    obtain rfl := Host.Outcome.next.inj h
    split
    · rfl
    · rw [encodeLoop_eq]; rfl
  | palLoad | cqNear | cqPix =>
    obtain rfl := Host.Outcome.next.inj h
    split <;> rfl
  | clrErr | cmdReserved =>
    obtain rfl := Host.Outcome.next.inj h
    rfl

/-! ### The palette -/

/-- The palette file and `PALV` (R22, R23) are the same in both states. -/
structure PaletteKept (s t : State) : Prop where
  pal : t.pal = s.pal
  palv : t.palv = s.palv

theorem PaletteKept.of_status {s t : State} (hpal : t.pal = s.pal) (hstatus : t.status = s.status) : PaletteKept s t :=
  ⟨hpal, congrArg (·.getLsbD 2) hstatus⟩

theorem PaletteKept.complete {s t : State} (h : PaletteKept s t) : PaletteKept s t.complete :=
  ⟨h.pal, t.complete_palv.trans h.palv⟩

theorem PaletteKept.raise (s : State) (r : Result) : PaletteKept s (s.raise r) :=
  ⟨rfl, s.raise_palv r⟩

/-- What `PAL.LOAD` can do: refuse and keep the palette, or load one of 768 bytes (R116, R117). -/
theorem execPalLoad_cases {s t : State} (h : execPalLoad s = .next t) :
    PaletteKept s t ∨ (s.plen.toNat = 768 ∧ t.palv = true ∧ t.result = Result.ok.code) := by
  obtain rfl := Host.Outcome.next.inj h
  split
  · exact .inl (PaletteKept.raise s _)
  · next hsize =>
    have hvalid : State.palv { s with pal := s.blobPalette, status := statusPaletteValid s.status } = true := by
      simp only [State.palv, statusPaletteValid_getLsbD, if_true]
    exact .inr ⟨not_not.mp hsize, (State.complete_palv _).trans hvalid, rfl⟩

theorem exec_paletteKept {i : Instr} (hi : i ≠ .palLoad) {s t : State} (h : exec i s = .next t) : PaletteKept s t := by
  cases i with
  | palLoad => exact absurd rfl hi
  | lit | run | run0 | mark =>
    rw [exec_token_eq rfl h]
    exact .of_status rfl rfl
  | rleDec =>
    obtain rfl := Host.Outcome.next.inj h
    split
    · exact .raise s _
    · exact .complete (.of_status (decodeLoop_pal _ (decodeStart s)) (decodeLoop_status _ (decodeStart s)))
  | rleEnc =>
    obtain rfl := Host.Outcome.next.inj h
    split
    · exact .raise s _
    · exact .complete (.of_status (encodeLoop_pal _ (encodeStart s)) (encodeLoop_status _ (encodeStart s)))
  | cqNear | cqPix =>
    obtain rfl := Host.Outcome.next.inj h
    split
    · exact .raise s _
    · exact .complete (.of_status rfl rfl)
  | clrErr =>
    obtain rfl := Host.Outcome.next.inj h
    refine .complete ⟨rfl, ?_⟩
    simp only [State.palv, statusErrorCleared_getLsbD]; simp
  | cmdReserved c =>
    obtain rfl := Host.Outcome.next.inj h
    exact .raise s _

/-- A move of the block keeps the palette, or it is a `PAL.LOAD` that completes `OK` (R22, R23). -/
theorem blockMove_palette {s t : State} (h : blockMove s = .next t) :
    PaletteKept s t ∨
      (decodeCommand s.cmd = .palLoad ∧ s.plen.toNat = 768 ∧ t.palv = true ∧ t.result = Result.ok.code) := by
  obtain ⟨-, -, -, rfl⟩ | ⟨-, -, -, rfl⟩ | ⟨-, hexec⟩ | ⟨-, -, i, rest, hi, hexec⟩ | ⟨-, -, rfl⟩ | ⟨-, -, rfl⟩ |
    ⟨-, -, rfl⟩ := blockMove_cases h
  · unfold decodeBegin
    split
    · exact .inl (.raise s _)
    · exact .inl (.of_status rfl rfl)
  · unfold encodeBegin
    split
    · exact .inl (.raise s _)
    · exact .inl (.of_status rfl rfl)
  · by_cases hload : decodeCommand s.cmd = .palLoad
    · rw [hload] at hexec
      exact (execPalLoad_cases hexec).imp_right fun hloaded => ⟨hload, hloaded⟩
    · exact .inl (exec_paletteKept hload hexec)
  · rw [exec_token_eq (decodeToken_space hi) hexec]
    exact .inl (.of_status rfl rfl)
  · exact .inl (.complete (.of_status rfl rfl))
  · exact .inl (.of_status rfl rfl)
  · exact .inl (.complete (.of_status rfl rfl))

@[simp] theorem State.start_palv (s : State) (c : Byte) : (s.start c).palv = s.palv := by
  simp only [State.palv, State.start_status, statusStarted_getLsbD]; simp

theorem State.writeRegister_paletteKept (s : State) (num : Byte) (v : Nat) : PaletteKept s (s.writeRegister num v) := by
  unfold State.writeRegister
  split
  · exact ⟨rfl, s.start_palv _⟩
  all_goals exact .of_status rfl rfl

/-- A read of `CMD` counts the free value it used up, and nothing else (log 11). -/
theorem State.countDraw_eq (s : State) (num : Byte) : s.countDraw num = { s with draws := (s.countDraw num).draws } := by
  unfold State.countDraw
  split <;> rfl

/-- Every move of the host but `rst` keeps the palette. -/
theorem hostMove_paletteKept {m : HostMove} {s t : State} (hwaits : m ≠ .rst) (hatOnce : m ≠ .rstAtOnce)
    (h : hostMove m s = .next t) : PaletteKept s t := by
  obtain ⟨num, v, w, -, -, -, rfl⟩ | ⟨num, w, -, -, rfl⟩ | ⟨sp, a, v, -, -, rfl⟩ | ⟨sp, a, -, -, rfl⟩ | ⟨hrst, -⟩ |
    ⟨-, rfl⟩ := hostMove_cases h
  · exact s.writeRegister_paletteKept num v
  · rw [State.countDraw_eq]
    exact .of_status rfl rfl
  · exact ⟨s.writeByte_pal sp a v, congrArg (·.getLsbD 2) (s.writeByte_status sp a v)⟩
  · exact .of_status rfl rfl
  · exact absurd hrst (by simp [hwaits, hatOnce])
  · exact .of_status rfl rfl

/-! ### The registers by number -/

/-- The registers as the host reads them, in the order of their numbers (R10). -/
def State.registerFile (s : State) : List Nat :=
  [(Config.cmdReadback s.draws).toNat, s.status.toNat, s.result.toNat, s.plen.toNat, s.dilen.toNat, s.dsize.toNat,
    s.dipos.toNat, s.dopos.toNat, s.dflags.toNat, s.eilen.toNat, s.eipos.toNat, s.eolen.toNat, s.qr.toNat, s.qg.toNat,
    s.qb.toNat, s.qa.toNat, s.qidx.toNat]

theorem State.registerValue_eq (s : State) (num : Byte) : s.registerValue num = s.registerFile.getD num.toNat 0 := by
  unfold State.registerValue
  split
  case h_18 =>
    have hreserved : s.registerFile.length ≤ num.toNat := by
      simp only [imp_false] at *
      simp only [State.registerFile, List.length]
      omega
    simp [hreserved]
  all_goals next hnum => rw [hnum]; rfl

/-- A state whose register file differs in one place reads the same in every other. -/
theorem State.registerValue_of_set {s t : State} {n x : Nat} (h : t.registerFile = s.registerFile.set n x) {k : Byte}
    (hk : k.toNat ≠ n) : t.registerValue k = s.registerValue k := by
  simp only [State.registerValue_eq, h, List.getD_eq_getElem?_getD, List.getElem?_set_ne hk.symm]

theorem State.registerValue_of_set_same {s t : State} {num : Byte} {x : Nat}
    (h : t.registerFile = s.registerFile.set num.toNat x) (hnum : num.toNat ≤ 0x10) : t.registerValue num = x := by
  have hlen : num.toNat < s.registerFile.length := by simp only [State.registerFile, List.length]; omega
  simp [State.registerValue_eq, h, hlen]

theorem State.countDraw_registerFile (s : State) (num : Byte) : (s.countDraw num).registerFile =
    s.registerFile.set 0 (Config.cmdReadback (s.countDraw num).draws).toNat := by
  rw [State.countDraw_eq]
  rfl

theorem registerWidth_eq (num : Byte) (h : num.toNat ≤ 0x10) :
    registerWidth num = some (if num.toNat = 0x0B then AW + 1
      else if num.toNat ∈ [0x03, 0x04, 0x05, 0x06, 0x07, 0x09, 0x0A] then AW else 8) := by
  revert num; decide +kernel

theorem registerWidth_reserved (num : Byte) (h : 0x11 ≤ num.toNat) : registerWidth num = none := by
  revert num; decide +kernel

/-! ### A write of a register by number -/

/-- The operand registers (R10, R29): `PLEN`, `DILEN`, `DSIZE`, `EILEN`, `QR`, `QG`, `QB`, `QA`. -/
abbrev operandNumbers : List Nat := [0x03, 0x04, 0x05, 0x09, 0x0C, 0x0D, 0x0E, 0x0F]

theorem operandNumbers_le {n : Nat} (h : n ∈ operandNumbers) : n ≤ 0x10 := by
  revert n; decide

theorem operandNumbers_ne_zero {n : Nat} (h : n ∈ operandNumbers) : n ≠ 0 := by
  revert n; decide

theorem State.start_registerFile (s : State) (c : Byte) :
    (s.start c).registerFile = s.registerFile.set 1 (statusStarted s.status).toNat := rfl

theorem State.start_statusKept (s : State) (c : Byte) : StatusKept s (s.start c) [0, 1] := by
  intro i hi
  simp only [List.mem_cons, List.not_mem_nil, or_false, not_or] at hi
  obtain ⟨hbusy, hdone⟩ := hi
  rw [State.start_status, statusStarted_getLsbD, if_neg hdone, if_neg hbusy]

theorem State.writeRegister_cmd (s : State) {num : Byte} (v : Nat) (h : num.toNat = 0) :
    s.writeRegister num v = s.start (BitVec.ofNat 8 v) := by
  simp only [State.writeRegister, h]

/-- What a write can change besides starting a command: the operand registers. -/
theorem State.writeRegister_eq (s : State) {num : Byte} (v : Nat) (h : num.toNat ≠ 0) : s.writeRegister num v =
    { s with
      plen := (s.writeRegister num v).plen
      dilen := (s.writeRegister num v).dilen
      dsize := (s.writeRegister num v).dsize
      eilen := (s.writeRegister num v).eilen
      qr := (s.writeRegister num v).qr
      qg := (s.writeRegister num v).qg
      qb := (s.writeRegister num v).qb
      qa := (s.writeRegister num v).qa } := by
  unfold State.writeRegister
  split
  · next hnum => exact absurd hnum h
  all_goals rfl

/-- A register that is read only to the host is left as it is (R29). -/
theorem State.writeRegister_readOnly (s : State) {num : Byte} (v : Nat)
    (h : num.toNat ∈ [0x01, 0x02, 0x06, 0x07, 0x08, 0x0A, 0x0B, 0x10]) : s.writeRegister num v = s := by
  simp only [List.mem_cons, List.not_mem_nil, or_false] at h
  obtain h | h | h | h | h | h | h | h := h <;> simp only [State.writeRegister, h]

/-- An operand that fits its register is stored as it is, in the place of its number. -/
theorem State.writeRegister_registerFile (s : State) {num : Byte} {w v : Nat} (hop : num.toNat ∈ operandNumbers)
    (hw : registerWidth num = some w) (hv : v < 2 ^ w) :
    (s.writeRegister num v).registerFile = s.registerFile.set num.toNat v := by
  have hfits : v % 2 ^ w = v := Nat.mod_eq_of_lt hv
  rw [registerWidth_eq num (operandNumbers_le hop), Option.some.injEq] at hw
  rw [← hw] at hfits
  simp only [List.mem_cons, List.not_mem_nil, or_false] at hop
  obtain h | h | h | h | h | h | h | h := hop <;>
    simpa [State.writeRegister, State.registerFile, h] using hfits

/-- The frame of a write of an operand register: the one register, and no byte. -/
theorem State.writeRegister_frame (s : State) {num : Byte} {w v : Nat} (hop : num.toNat ∈ operandNumbers)
    (hw : registerWidth num = some w) (hv : v < 2 ^ w) : Frame s (s.writeRegister num v) [num.toNat] [] := by
  have hkept := s.writeRegister_eq v (operandNumbers_ne_zero hop)
  exact
    { cmd := by rw [hkept]
      registers := fun k hk => State.registerValue_of_set (s.writeRegister_registerFile hop hw hv) (by simpa using hk)
      bytes := fun sp _ a => by rw [hkept]; rfl
      params := by rw [hkept]
      host := by rw [hkept]
      replies := by rw [hkept]
      epoch := by rw [hkept]
      draws := by rw [hkept] }

end Sys2Proof.Machine

namespace Sys2Proof.Machine

/-- Settles O44: no operand register, and nothing outside the block, is among what `exec_eq` lets an instruction write. -/
theorem noInstructionWritesAnOperandRegister : Obligations.NoInstructionWritesAnOperandRegister := by
  intro s t i h
  rw [exec_eq h]
  exact ⟨rfl, rfl, rfl, rfl, rfl, rfl, rfl, rfl, rfl, rfl, rfl, rfl, rfl, rfl⟩

/-- Settles O46, by the cases of a step: only `rst` and the block's own move can reach the palette. -/
theorem paletteChangesOnlyByLoadOrRst : Obligations.PaletteChangesOnlyByLoadOrRst := by
  intro s t h
  obtain ⟨rest, hs, -⟩ | ⟨rest, -, rfl⟩ | ⟨-, -, rfl⟩ | ⟨m, rest, hidle, hs, hmove⟩ | ⟨hbusy, hmove⟩ := step_cases h
  · exact .inl (.inl (by rw [hs]; rfl))
  · exact .inr (.inl ⟨rfl, rfl⟩)
  · exact .inr (.inl ⟨rfl, rfl⟩)
  · by_cases hatOnce : m = .rstAtOnce
    · exact .inl (.inl (by rw [hs, hatOnce]; rfl))
    · by_cases hwaits : m = .rst
      · exact .inl (.inr ⟨by rw [hs, hwaits]; rfl, hidle⟩)
      · have hkept := hostMove_paletteKept hwaits hatOnce hmove
        exact .inr (.inl ⟨hkept.pal, hkept.palv⟩)
  · obtain hkept | hload := blockMove_palette hmove
    · exact .inr (.inl ⟨hkept.pal, hkept.palv⟩)
    · exact .inr (.inr ⟨hbusy, hload⟩)

/-- Settles O47: an operand register's number is written in its place of the register file, `CMD` starts the command, and a
read-only number changes nothing. -/
theorem hostWriteOfARegister : Obligations.HostWriteOfARegister := by
  intro s num w v hw hv
  have hvalue (hop : num.toNat ∈ operandNumbers) : (s.writeRegister num v).registerValue num = v :=
    State.registerValue_of_set_same (s.writeRegister_registerFile hop hw hv) (operandNumbers_le hop)
  have hoperand (hop : num.toNat ∈ operandNumbers) : (s.writeRegister num v).registerValue num = v ∧
      (s.writeRegister num v).stage = s.stage ∧ Frame s (s.writeRegister num v) [num.toNat] [] :=
    ⟨hvalue hop, by rw [s.writeRegister_eq v (operandNumbers_ne_zero hop)], s.writeRegister_frame hop hw hv⟩
  refine ⟨s.writeRegister num v, by rw [hostMove, hw]; exact if_pos hv, (s.writeRegister_paletteKept num v).pal, hoperand,
    ?_, ?_, ?_, ?_, ?_, ?_, ?_, ?_, fun hro => s.writeRegister_readOnly v hro, fun hcmd => ?start⟩
  case start =>
    obtain rfl : w = 8 := by simpa [registerWidth, hcmd] using hw.symm
    rw [s.writeRegister_cmd v hcmd]
    exact ⟨Nat.mod_eq_of_lt hv, s.start_busy _, s.start_done _, rfl, s.start_statusKept _,
      fun k hk => State.registerValue_of_set (s.start_registerFile _) hk, fun sp a => rfl⟩
  all_goals
    intro hnum
    simpa [State.registerValue, hnum] using hvalue (by simp [operandNumbers, hnum])

/-- Settles O48: a read answers from the register file, and `countDraw` touches its place of `CMD` alone. -/
theorem hostReadOfARegister : Obligations.HostReadOfARegister := by
  intro s num hnum
  refine ⟨registerWidth_eq num hnum, rfl, (s.reply (.reg num (s.registerValue num))).countDraw num, ?_, ?_, ?_, ?_, ?_⟩
  · rw [hostMove, registerWidth_eq num hnum]
  · rw [State.countDraw_eq]; rfl
  · intro h
    simp [State.registerValue, State.countDraw, h]
  · intro h
    simp [State.countDraw, h]
  · refine ⟨?_, ?_, ?_, fun k hk => State.registerValue_of_set (State.countDraw_registerFile _ num) hk, ?_⟩ <;>
      rw [State.countDraw_eq]
    exacts [rfl, rfl, rfl, fun sp a => rfl]

/-- Settles O49: a reserved number has no width, and the other refusals are the failing bounds of `hostMove`. -/
theorem hostMovesWithoutMeaningAreRefused : Obligations.HostMovesWithoutMeaningAreRefused := by
  intro s
  refine ⟨fun num hnum => ?_, fun num w v hw hv => ?_, fun sp a ha => ?_⟩
  · simp [hostMove, registerWidth_reserved num hnum]
  · simp [hostMove, hw, Nat.not_lt.mpr hv]
  · simp [hostMove, Nat.not_lt.mpr ha]

/-- Settles O51: the fields of `State.reset`, and the hold of an idle block with no host move left. -/
theorem resetControlState : Obligations.ResetControlState :=
  ⟨rfl, rfl, rfl, rfl, rfl, rfl, rfl, rfl, rfl, rfl, rfl, rfl⟩

theorem Params.largest_legal : Params.largest.Legal := by
  constructor <;> decide

/-- Settles O53: reset lists no byte, has every control bit 0 and stands between commands. -/
theorem resetMeetsInvariant : Obligations.ResetMeetsInvariant where
  params := Params.largest_legal
  memory := fun sp => ⟨State.reset_memory_wf sp, by rw [State.reset_mem]; rfl⟩
  statusReserved := by decide
  flagsReserved := by decide
  resultCode := by decide
  doneIdle := fun _ => by decide
  refusalSticks := fun hr => absurd rfl hr
  stageBusy := fun hs => absurd rfl hs
  decoder := nofun
  encoder := nofun

end Sys2Proof.Machine

/-! # Proofs, memory (20_memory.md): which instruction writes which byte space and where, and the host's byte accesses -/

namespace Sys2Proof.Machine

/-! ### Bytes kept from an address on -/

/-- No byte of the memory at `n` or above differs between `m` and `m'`. -/
def Memory.KeptFrom (n : Nat) (m m' : Memory) : Prop := ∀ a, n ≤ a → m'.byteAt a = m.byteAt a

theorem Memory.KeptFrom.refl (n : Nat) (m : Memory) : m.KeptFrom n m := fun _ _ => rfl

theorem Memory.KeptFrom.trans {n : Nat} {m m' m'' : Memory} (h : m.KeptFrom n m') (h' : m'.KeptFrom n m'') :
    m.KeptFrom n m'' := fun a ha => (h' a ha).trans (h a ha)

theorem Memory.keptFrom_put (m : Memory) {a n : Nat} (v : Byte) (h : a < n) : m.KeptFrom n (m.put a v) :=
  fun _ hb => m.byteAt_put_other v (by omega)

theorem Memory.keptFrom_fill (m : Memory) {a k n : Nat} (v : Byte) (h : a + k ≤ n) : m.KeptFrom n (m.fill a k v) :=
  fun b hb => by rw [Memory.byteAt_fill, if_neg (by omega)]

theorem Memory.keptFrom_putAll (m : Memory) {a n : Nat} (vs : List Byte) (h : a + vs.length ≤ n) :
    m.KeptFrom n (m.putAll a vs) :=
  fun b hb => by rw [Memory.byteAt_putAll, if_neg (by omega)]

/-- A read sees the space's written bytes and the reset's number alone. -/
theorem State.readByte_of_keptFrom {s t : State} {sp : ByteSpace} {n a : Nat} (hm : (s.mem sp).KeptFrom n (t.mem sp))
    (he : t.epoch = s.epoch) (ha : n ≤ a) : t.readByte sp a = s.readByte sp a := by
  rw [State.readByte, State.readByte, hm a ha, he]

/-! ### The decoder stores below `DSIZE` (R82, R84) -/

/-- An interpreted token stores at `DOPOS`, and at most the room left (R84, R151). -/
theorem tokenEffect_dout_keptFrom (i : Instr) {s : State} (ha : s.decoderActive) :
    s.dout.KeptFrom s.dsize.toNat (tokenEffect i s).dout := by
  have hroom : s.dopos.toNat < s.dsize.toNat := ha.1
  have hmarker (n : Nat) (v : Byte) : s.dout.KeptFrom s.dsize.toNat (markerEffect n v s).dout := by
    unfold markerEffect
    split
    · exact .refl _ _
    · have hlen : min n s.outputRoom ≤ s.dsize.toNat - s.dopos.toNat := Nat.min_le_right _ _
      exact s.dout.keptFrom_fill v (by omega)
  cases i with
  | lit v => exact s.dout.keptFrom_put v hroom
  | run n v => exact hmarker n.toNat v
  | run0 v => exact hmarker 0 v
  | _ => exact .refl _ _

theorem decStep_dout_keptFrom {s : State} (ha : s.decoderActive) :
    s.dout.KeptFrom s.dsize.toNat (decStep s).dout := by
  unfold decStep
  split
  · exact tokenEffect_dout_keptFrom _ ha
  · exact .refl _ _

theorem decStep_dsize {s : State} (ha : s.decoderActive) : (decStep s).dsize = s.dsize := by
  rw [decStep_eq ha]

theorem decodeLoop_dout_keptFrom (fuel : Nat) (s : State) :
    s.dout.KeptFrom s.dsize.toNat (decodeLoop fuel s).dout := by
  induction fuel generalizing s with
  | zero => exact .refl _ _
  | succ fuel ih =>
    unfold decodeLoop
    split
    · next ha =>
      have hrest := ih (decStep s)
      rw [decStep_dsize ha] at hrest
      exact (decStep_dout_keptFrom ha).trans hrest
    · exact .refl _ _

/-! ### The encoder stores below `2 x EILEN` (R101, R107) -/

/-- While `EOLEN` is at most `2 x EIPOS`, a token's bytes lie below `2 x EILEN`, and the bound holds of the next cursors too:
a token takes at most two bytes and consumes at least one (R103, R104). -/
theorem encStep_eout_bound {s : State} (ha : s.encoderActive) (hbound : s.eolen.toNat ≤ 2 * s.eipos.toNat) :
    s.eout.KeptFrom (2 * s.eilen.toNat) (encStep s).eout ∧ (encStep s).eolen.toNat ≤ 2 * (encStep s).eipos.toNat := by
  have hrun := encoderRun_bounds ha
  have hlen := encoderToken_length_le s
  have hwidth := s.eilen.isLt
  have heolen : (encStep s).eolen.toNat = s.eolen.toNat + (encode s.encoderToken).length :=
    toNat_add_ofNat_of_lt _ (by omega)
  refine ⟨s.eout.keptFrom_putAll _ (by omega), ?_⟩
  rw [heolen, encStep_eipos_toNat ha]
  omega

theorem encodeLoop_eout_keptFrom (fuel : Nat) {s : State} (hbound : s.eolen.toNat ≤ 2 * s.eipos.toNat) :
    s.eout.KeptFrom (2 * s.eilen.toNat) (encodeLoop fuel s).eout := by
  induction fuel generalizing s with
  | zero => exact .refl _ _
  | succ fuel ih =>
    unfold encodeLoop
    split
    · next ha =>
      obtain ⟨hkept, hnext⟩ := encStep_eout_bound ha hbound
      exact hkept.trans (ih hnext)
    · exact .refl _ _

/-! ### What an instruction can do to the two output spaces -/

/-- `DOUT` is written by the tokens and `RLE.DEC` alone, and below `DSIZE` (R41). -/
theorem exec_dout {i : Instr} {s t : State} (h : exec i s = .next t) :
    t.dout = s.dout ∨ ((i.space = .token ∨ i = .rleDec) ∧ s.dout.KeptFrom s.dsize.toNat t.dout) := by
  cases i with
  | lit | run | run0 | mark =>
    rw [exec_of_token rfl, ifInterpreted] at h
    obtain rfl := Host.Outcome.next.inj h
    split
    · next ha => exact .inr ⟨.inl rfl, tokenEffect_dout_keptFrom _ ha⟩
    · exact .inl rfl
  | rleDec =>
    obtain rfl := Host.Outcome.next.inj h
    split
    · exact .inl rfl
    · have hzeroed : s.dout.KeptFrom s.dsize.toNat (decodeStart s).dout := s.dout.keptFrom_fill _ (by omega)
      exact .inr ⟨.inr rfl, hzeroed.trans (decodeLoop_dout_keptFrom _ (decodeStart s))⟩
  | rleEnc =>
    obtain rfl := Host.Outcome.next.inj h
    split
    · exact .inl rfl
    · rw [encodeLoop_eq]; exact .inl rfl
  | palLoad | cqNear | cqPix =>
    obtain rfl := Host.Outcome.next.inj h
    split <;> exact .inl rfl
  | clrErr | cmdReserved =>
    obtain rfl := Host.Outcome.next.inj h
    exact .inl rfl

/-- `EOUT` is written by `RLE.ENC` alone, and below `2 x EILEN` (R41). -/
theorem exec_eout {i : Instr} {s t : State} (h : exec i s = .next t) :
    t.eout = s.eout ∨ (i = .rleEnc ∧ s.eout.KeptFrom (2 * s.eilen.toNat) t.eout) := by
  cases i with
  | lit | run | run0 | mark => rw [exec_token_eq rfl h]; exact .inl rfl
  | rleDec =>
    obtain rfl := Host.Outcome.next.inj h
    split
    · exact .inl rfl
    · rw [decodeLoop_eq]; exact .inl rfl
  | rleEnc =>
    obtain rfl := Host.Outcome.next.inj h
    split
    · exact .inl rfl
    · exact .inr ⟨rfl, encodeLoop_eout_keptFrom _ (s := encodeStart s) (Nat.zero_le _)⟩
  | palLoad | cqNear | cqPix =>
    obtain rfl := Host.Outcome.next.inj h
    split <;> exact .inl rfl
  | clrErr | cmdReserved =>
    obtain rfl := Host.Outcome.next.inj h
    exact .inl rfl

/-! ### The host's byte accesses -/

theorem hostMove_writeByte {s : State} {sp : ByteSpace} {a : Nat} (v : Byte) (h : a < s.params.cap sp) :
    hostMove (.writeByte sp a v) s = .next (s.writeByte sp a v) := if_pos h

theorem hostMove_readByte {s : State} {sp : ByteSpace} {a : Nat} (h : a < s.params.cap sp) :
    hostMove (.readByte sp a) s = .next (s.reply (.byte sp a (s.readByte sp a))) := if_pos h

theorem State.writeByte_registerFile (s : State) (sp : ByteSpace) (a : Nat) (v : Byte) :
    (s.writeByte sp a v).registerFile = s.registerFile := by
  cases sp <;> rfl

/-- The frame of a write of one byte: no register, and no byte of another space (R40). -/
theorem State.writeByte_frame (s : State) (sp : ByteSpace) (a : Nat) (v : Byte) :
    Frame s (s.writeByte sp a v) [] [sp] where
  cmd := s.writeByte_cmd sp a v
  registers := fun k _ => by simp only [State.registerValue_eq, State.writeByte_registerFile]
  bytes := fun sp' hsp a' => by
    rw [State.readByte_writeByte, if_neg fun h => hsp (List.mem_singleton.mpr h.1)]
  params := s.writeByte_params sp a v
  host := s.writeByte_host sp a v
  replies := s.writeByte_replies sp a v
  epoch := s.writeByte_epoch sp a v
  draws := s.writeByte_draws sp a v

end Sys2Proof.Machine

namespace Sys2Proof.Machine

/-- Settles O45: `exec_eq` keeps the input spaces, and `exec_dout` and `exec_eout` say who writes the output spaces and where. -/
theorem eachInstructionWritesItsSpaceOnly : Obligations.EachInstructionWritesItsSpaceOnly := by
  intro s t i h
  have hepoch : t.epoch = s.epoch := by rw [exec_eq h]
  have hpin : t.pin = s.pin := by rw [exec_eq h]
  have hdin : t.din = s.din := by rw [exec_eq h]
  have hein : t.ein = s.ein := by rw [exec_eq h]
  refine ⟨fun a => State.readByte_congr .pin a hpin hepoch, fun a => State.readByte_congr .din a hdin hepoch,
    fun a => State.readByte_congr .ein a hein hepoch, ?_, ?_, ?_, ?_⟩
  · rintro ⟨hcommand, hnot⟩ a
    obtain hsame | ⟨htoken | hdec, -⟩ := exec_dout h
    · exact State.readByte_congr .dout a hsame hepoch
    · exact absurd (hcommand.symm.trans htoken) (by decide)
    · exact absurd hdec hnot
  · intro a ha
    obtain hsame | ⟨-, hkept⟩ := exec_dout h
    · exact State.readByte_congr .dout a hsame hepoch
    · exact State.readByte_of_keptFrom (sp := .dout) hkept hepoch ha
  · intro hnot a
    obtain hsame | ⟨henc, -⟩ := exec_eout h
    · exact State.readByte_congr .eout a hsame hepoch
    · exact absurd henc hnot
  · intro a ha
    obtain hsame | ⟨-, hkept⟩ := exec_eout h
    · exact State.readByte_congr .eout a hsame hepoch
    · exact State.readByte_of_keptFrom (sp := .eout) hkept hepoch ha

/-- Settles O50: a byte write is `State.writeByte`, whose reads `State.readByte_writeByte` gives, and a byte read only adds a
reply. -/
theorem hostByteWriteIsPlainStorage : Obligations.HostByteWriteIsPlainStorage := by
  intro s sp a v ha
  have hsame : (s.writeByte sp a v).readByte sp a = v := by simp [State.readByte_writeByte]
  have hother (sp' : ByteSpace) (a' : Nat) (hne : sp' ≠ sp ∨ a' ≠ a) :
      (s.writeByte sp a v).readByte sp' a' = s.readByte sp' a' := by
    rw [State.readByte_writeByte, if_neg (by rwa [not_and_or])]
  have hread : hostMove (.readByte sp a) (s.writeByte sp a v) = .next ((s.writeByte sp a v).reply (.byte sp a v)) := by
    rw [hostMove_readByte (by rwa [State.writeByte_params]), hsame]
  exact ⟨⟨_, hostMove_writeByte v ha, hsame, hother, s.writeByte_pal sp a v, s.writeByte_stage sp a v,
      s.writeByte_status sp a v, s.writeByte_frame sp a v, _, hread,
      congrArg (List.cons _) (s.writeByte_replies sp a v), fun _ _ => rfl⟩,
    ⟨_, hostMove_readByte ha, rfl, fun _ _ => rfl, fun _ => rfl, rfl, rfl, rfl, rfl, rfl, rfl, rfl⟩⟩

end Sys2Proof.Machine

/-! # Proofs, encoding (30_encoding.md): the decoder and the encoder are inverse to each other, which control byte opens which
token, the command codes, and that no step faults -/

namespace Sys2Proof

/-! ### What a control byte opens -/

theorem runControl_zero : runControl 0#6 = Config.runMark := rfl

theorem isRunMarker_eq_false_iff (c : Byte) : isRunMarker c = false ↔ c.toNat < 0xC0 := by
  rw [← Bool.not_eq_true, isRunMarker_iff, Nat.not_le]

/-- The count of a marker byte is what it exceeds 0xC0 by (R65). -/
theorem countField_of_le {c : Byte} (h : 0xC0 ≤ c.toNat) : countField c = BitVec.ofNat 6 (c.toNat - 0xC0) := by
  have hc := c.isLt
  apply BitVec.eq_of_toNat_eq
  rw [countField_toNat, BitVec.toNat_ofNat]
  omega

/-- Below the marker, the control byte alone is the token, whatever follows it (R61). -/
theorem decodeToken_of_not_marker {c : Byte} (h : isRunMarker c = false) (rest : List Byte) :
    decodeToken (c :: rest) = .ok (.lit c, rest) := by
  cases rest with
  | nil => simp [decodeToken, h]
  | cons v rest => simp [decodeToken, h]

/-- A marker with a byte after it takes both (R62, R63). -/
theorem decodeToken_of_marker {c : Byte} (h : isRunMarker c = true) (v : Byte) (rest : List Byte) :
    decodeToken (c :: v :: rest) = .ok (if countField c = 0#6 then .run0 v else .run (countField c) v, rest) := by
  rw [decodeToken, if_pos h]

/-- A marker with no byte after it is dangling (R72). -/
theorem decodeToken_of_last_marker {c : Byte} (h : isRunMarker c = true) : decodeToken [c] = .ok (.mark (countField c), []) := by
  rw [decodeToken, if_pos h]

theorem decode_command (c : Byte) (rest : List Byte) : decode .command (c :: rest) = .ok (decodeCommand c, rest) := rfl

theorem decodeCommand_reserved {c : Byte} (h : c = 0#8 ∨ 7 ≤ c.toNat) : decodeCommand c = .cmdReserved c := by
  have hcode : c.toNat = 0 ∨ 7 ≤ c.toNat := h.imp_left (congrArg BitVec.toNat)
  unfold decodeCommand
  split
  case h_7 => rfl
  all_goals omega

/-! ### Decoding what was encoded -/

/-- A well-formed token decodes from its own bytes and leaves the rest; `MARK` only where nothing follows (R72). -/
theorem decodeToken_encode {i : Instr} (hspace : i.space = .token) (hwf : i.wf = true) {rest : List Byte}
    (hmark : ∀ n, i = .mark n → rest = []) : decodeToken (encode i ++ rest) = .ok (i, rest) := by
  cases i with
  | lit v =>
    have hv : v.toNat < 0xC0 := of_decide_eq_true hwf
    exact decodeToken_of_not_marker ((isRunMarker_eq_false_iff v).mpr hv) rest
  | run n v =>
    have hn : n ≠ 0#6 := of_decide_eq_true hwf
    refine (decodeToken_of_marker (isRunMarker_runControl n) v rest).trans ?_
    rw [countField_runControl, if_neg hn]
  | run0 v => exact decodeToken_of_marker (isRunMarker_runControl 0#6) v rest
  | mark n =>
    obtain rfl := hmark n rfl
    refine (decodeToken_of_last_marker (isRunMarker_runControl n)).trans ?_
    rw [countField_runControl]
  | _ => cases hspace

/-- A well-formed command is the command of its code (R68, R69). -/
theorem decode_encode_command {i : Instr} (hspace : i.space = .command) (hwf : i.wf = true) (rest : List Byte) :
    decode .command (encode i ++ rest) = .ok (i, rest) := by
  cases i with
  | lit | run | run0 | mark => cases hspace
  | cmdReserved c => exact (decode_command c rest).trans (by rw [decodeCommand_reserved (of_decide_eq_true hwf)])
  | palLoad | rleDec | rleEnc | cqNear | cqPix | clrErr => rfl

theorem decode_encode {i : Instr} (hwf : i.wf = true) {rest : List Byte} (hmark : ∀ n, i = .mark n → rest = []) :
    decode i.space (encode i ++ rest) = .ok (i, rest) := by
  cases hspace : i.space with
  | token => exact decodeToken_encode hspace hwf hmark
  | command => exact decode_encode_command hspace hwf rest

/-! ### Encoding what was decoded -/

theorem runControl_of_countField_zero {c : Byte} (h : isRunMarker c = true) (hn : countField c = 0#6) : c = Config.runMark := by
  rw [← runControl_countField c h, hn, runControl_zero]

/-- What the token decoder reads is well formed, and its bytes are the bytes taken (R64). -/
theorem encode_decodeToken {bytes rest : List Byte} {i : Instr} (h : decodeToken bytes = .ok (i, rest)) :
    i.wf = true ∧ encode i ++ rest = bytes := by
  have hlit {c : Byte} (hc : isRunMarker c = false) : (Instr.lit c).wf = true :=
    decide_eq_true ((isRunMarker_eq_false_iff c).mp hc)
  obtain ⟨c, rfl, rfl, ⟨hc, rfl⟩ | ⟨hc, rfl⟩⟩ |
    ⟨c, v, tail, rfl, ⟨hc, rfl, ⟨hn, rfl⟩ | ⟨hn, rfl⟩⟩ | ⟨hc, rfl, rfl⟩⟩ := decodeToken_cases h
  · exact ⟨rfl, by simp [encode, runControl_countField c hc]⟩
  · exact ⟨hlit hc, rfl⟩
  · exact ⟨rfl, by simp [encode, runControl_of_countField_zero hc hn]⟩
  · exact ⟨decide_eq_true hn, by simp [encode, runControl_countField c hc]⟩
  · exact ⟨hlit hc, rfl⟩

/-- `MARK` is read only from the last byte (R72). -/
theorem decodeToken_mark_rest {bytes rest : List Byte} {n : BitVec 6} (h : decodeToken bytes = .ok (.mark n, rest)) :
    rest = [] := by
  obtain ⟨c, -, hrest, -⟩ | ⟨c, v, tail, -, ⟨-, -, ⟨-, hi⟩ | ⟨-, hi⟩⟩ | ⟨-, -, hi⟩⟩ := decodeToken_cases h
  · exact hrest
  all_goals cases hi

end Sys2Proof

namespace Sys2Proof.Machine

/-! ### The moves of a step and the one fault -/

theorem commandMove_completes (s : State) : ∃ t, commandMove s = .next t := by
  unfold commandMove
  split
  · exact ⟨_, rfl⟩
  · exact ⟨_, rfl⟩
  · exact exec_completes _ s

/-- The loop test of R83 stands before the fetch, so a token is never fetched from no bytes (log 21). -/
theorem tokenMove_completes (s : State) : ∃ t, tokenMove s = .next t := by
  by_cases ha : s.decoderActive
  · exact ⟨_, tokenMove_of_active ha⟩
  · exact ⟨_, if_neg ha⟩

/-- Every move of the block has a next state (R66, R188). -/
theorem blockMove_completes (s : State) : ∃ t, blockMove s = .next t := by
  unfold blockMove
  split
  · exact commandMove_completes s
  · exact tokenMove_completes s
  · exact ⟨_, rfl⟩

/-- A host move without a meaning is refused, never a fault. -/
theorem hostMove_ne_fault (m : HostMove) (s : State) (f : Fault) : hostMove m s ≠ .fault f := by
  cases m with
  | write num v =>
    simp only [hostMove]
    split
    · nofun
    · split <;> nofun
  | read num =>
    simp only [hostMove]
    split <;> nofun
  | writeByte sp a v | readByte sp a =>
    simp only [hostMove]
    split <;> nofun
  | rst | rstAtOnce | pollStatus => nofun

end Sys2Proof.Machine

namespace Sys2Proof.Machine

/-- Settles O1: `decode_encode`, whose rest is empty for `MARK`. -/
theorem decodeOfEncodeGivesInstruction : Obligations.DecodeOfEncodeGivesInstruction := by
  intro i hwf
  refine ⟨?_, fun rest hnot => decode_encode hwf fun n hi => absurd hi (hnot n)⟩
  have hown := decode_encode hwf (rest := []) fun _ _ => rfl
  rwa [List.append_nil] at hown

/-- Settles O2: the decoder answers on every stream, and `encode_decodeToken` reads its answer back. -/
theorem everyStreamDecodesToItsOwnToken : Obligations.EveryStreamDecodesToItsOwnToken := by
  intro bytes hne
  obtain ⟨i, rest, h⟩ := decodeToken_completes hne
  obtain ⟨hwf, hbytes⟩ := encode_decodeToken h
  exact ⟨i, rest, h, hwf, decodeToken_space h, hbytes, fun n hi => decodeToken_mark_rest (hi ▸ h)⟩

/-- Settles O55, by who moves: `rst` and a poll have a next state, and so has every move of the block; a host move is answered or
refused. -/
theorem noStepFaults : Obligations.NoStepFaults := by
  intro s f
  unfold step nextMove
  split
  · nofun
  · nofun
  · split
    · obtain ⟨t, ht⟩ := blockMove_completes s
      rw [ht]
      nofun
    · split
      · nofun
      · exact hostMove_ne_fault _ _ f

/-- Settles O3: the marker test and the count field, as numbers. -/
theorem controlByteSelectsToken : Obligations.ControlByteSelectsToken := by
  intro c v rest
  refine ⟨fun h => decodeToken_of_not_marker ((isRunMarker_eq_false_iff c).mpr h) _, fun h => ?_, fun h => ?_⟩
  · have hcount : countField c = 0#6 := by rw [countField_of_le h.ge, h]
    rw [decodeToken_of_marker ((isRunMarker_iff c).mpr h.ge), if_pos hcount]
  · have hle : 0xC0 ≤ c.toNat := Nat.le_of_succ_le h
    have hcount : countField c ≠ 0#6 := fun h0 => by
      have hc := c.isLt
      have hmod := countField_toNat c
      rw [h0, BitVec.toNat_ofNat] at hmod
      omega
    rw [decodeToken_of_marker ((isRunMarker_iff c).mpr hle), if_neg hcount, countField_of_le hle]

/-- Settles O4: the six codes by their rows, every other by `decodeCommand_reserved`. -/
theorem commandCodes : Obligations.CommandCodes :=
  ⟨rfl, rfl, rfl, rfl, rfl, rfl, fun _ h => decodeCommand_reserved (h.imp_left fun h0 => BitVec.eq_of_toNat_eq h0)⟩

/-- Settles O5: each word is the encoding of its instruction, so `decode_encode` reads it. -/
theorem sampleWordsDecode : Obligations.SampleWordsDecode :=
  ⟨decode_encode (i := .run 5#6 0x07#8) rfl nofun, decode_encode (i := .run0 0x55#8) rfl nofun,
    decode_encode (i := .lit 0xBF#8) (rest := [0xC0#8]) rfl nofun, decode_encode (i := .mark 3#6) rfl fun _ _ => rfl,
    decode_encode (i := .cqPix) rfl nofun, decode_encode (i := .cmdReserved 0x80#8) rfl nofun⟩

end Sys2Proof.Machine

/-! # Proofs, RLE decoder (40_rle_decode.md): what each token does on its own, that `RLE.DEC` is refused for its lengths alone,
and the end state its tokens give -/

namespace Sys2Proof

theorem encode_length (i : Instr) : (encode i).length = i.length := by
  cases i <;> rfl

/-- The token a run marker with a value byte opens (R62, R63). -/
def markerToken (n : BitVec 6) (v : Byte) : Instr := if n = 0#6 then .run0 v else .run n v

theorem markerToken_length (n : BitVec 6) (v : Byte) : (markerToken n v).length = 2 := by
  unfold markerToken
  split <;> rfl

theorem markerToken_eq_run0_iff (n : BitVec 6) (v w : Byte) : .run0 w = markerToken n v ↔ n = 0#6 ∧ w = v := by
  unfold markerToken
  split <;> simp [*]

theorem markerToken_ne_mark (n m : BitVec 6) (v : Byte) : .mark m ≠ markerToken n v := by
  unfold markerToken
  split <;> nofun

end Sys2Proof

namespace Sys2Proof.Machine

/-- A run of count 0 gives no byte (R88), so both forms give as many copies as they count. -/
theorem outputOf_markerToken (n : BitVec 6) (v : Byte) : outputOf (markerToken n v) = List.replicate n.toNat v := by
  unfold markerToken
  split
  · next hn => subst hn; rfl
  · rfl

/-! ### Frames -/

theorem getElem?_foldl_set_of_notMem {cells : List (Nat × Nat)} {n : Nat} (h : n ∉ cells.map Prod.fst) (file : List Nat) :
    (cells.foldl (fun file cell => file.set cell.1 cell.2) file)[n]? = file[n]? := by
  induction cells generalizing file with
  | nil => rfl
  | cons cell cells ih =>
    simp only [List.map_cons, List.mem_cons, not_or] at h
    rw [List.foldl_cons, ih h.2, List.getElem?_set_ne (Ne.symm h.1)]

/-- A frame is read off the places of the register file that took a new value, and the spaces left as they were. -/
theorem Frame.of_cells {s t : State} (cells : List (Nat × Nat)) {spaces : List ByteSpace}
    (hfile : t.registerFile = cells.foldl (fun file cell => file.set cell.1 cell.2) s.registerFile)
    (hmem : ∀ sp, sp ∉ spaces → t.mem sp = s.mem sp) (hcmd : t.cmd = s.cmd) (hparams : t.params = s.params)
    (hhost : t.host = s.host) (hreplies : t.replies = s.replies) (hepoch : t.epoch = s.epoch) (hdraws : t.draws = s.draws) :
    Frame s t (cells.map Prod.fst) spaces where
  cmd := hcmd
  registers := fun k hk => by
    simp only [State.registerValue_eq, hfile, List.getD_eq_getElem?_getD, getElem?_foldl_set_of_notMem hk]
  bytes := fun sp hsp a => State.readByte_congr sp a (hmem sp hsp) hepoch
  params := hparams
  host := hhost
  replies := hreplies
  epoch := hepoch
  draws := hdraws

theorem State.withDout_mem (s : State) (m : Memory) {sp : ByteSpace} (h : sp ∉ [ByteSpace.dout]) :
    State.mem { s with dout := m } sp = s.mem sp := by
  cases sp with
  | dout => simp at h
  | _ => rfl

theorem tokenEffect_frame (i : Instr) (s : State) : TokenFrame s (tokenEffect i s) := by
  rw [tokenEffect_eq]
  exact
    { palette := rfl
      stage := rfl
      frame := .of_cells [(0x06, _), (0x07, _), (0x08, _)] rfl (fun _ hsp => s.withDout_mem _ hsp) rfl rfl rfl rfl rfl rfl }

/-- The frame of the loop of `RLE.DEC` and of its end, from the state it began in. -/
theorem decodeFinish_frame (fuel : Nat) (s : State) :
    Frame s (decodeFinish (decodeLoop fuel (decodeStart s))) [0x01, 0x02, 0x06, 0x07, 0x08] [.dout] := by
  rw [decodeLoop_eq]
  exact .of_cells [(0x01, _), (0x02, _), (0x06, _), (0x07, _), (0x08, _)] rfl (fun _ hsp => s.withDout_mem _ hsp)
    rfl rfl rfl rfl rfl rfl

/-! ### The end of a command -/

theorem State.complete_ended (s : State) : CommandEnded s.complete :=
  ⟨s.complete_busy, s.complete_done, rfl⟩

theorem State.complete_statusKept {s t : State} (h : t.status = s.status) : StatusKept s t.complete [0, 1] := by
  intro i hi
  simp only [List.mem_cons, List.not_mem_nil, or_false, not_or] at hi
  obtain ⟨hbusy, hdone⟩ := hi
  rw [State.complete_status, statusEnded_getLsbD, if_neg hdone, if_neg hbusy, h]

theorem State.raise_statusKept (s : State) (r : Result) : StatusKept s (s.raise r) [0, 1, 3] := by
  intro i hi
  simp only [List.mem_cons, List.not_mem_nil, or_false, not_or] at hi
  obtain ⟨hbusy, hdone, hsticky⟩ := hi
  rw [State.raise_status, statusEnded_getLsbD, if_neg hdone, if_neg hbusy, statusStickyError_getLsbD, if_neg hsticky]

/-- `State.raise` does the four items of R186 and nothing else. -/
theorem State.raise_refusedWith (s : State) (r : Result) : RefusedWith s (s.raise r) r where
  result := rfl
  sticky := s.raise_esticky r
  ended := ⟨s.raise_busy r, s.raise_done r, rfl⟩
  status := s.raise_statusKept r
  palette := rfl
  frame := .of_cells [(0x01, _), (0x02, _)] rfl (fun sp _ => by cases sp <;> rfl) rfl rfl rfl rfl rfl rfl

theorem execRleDec_refused {s : State} (h : s.decodeTooLong) : exec .rleDec s = .next (s.raise .badLength) :=
  congrArg Host.Outcome.next (if_pos h)

theorem execRleDec_runs {s : State} (h : ¬ s.decodeTooLong) :
    exec .rleDec s = .next (decodeFinish (decodeLoop s.dilen.toNat (decodeStart s))) :=
  congrArg Host.Outcome.next (if_neg h)

@[simp] theorem decodeFinish_dflags (s : State) :
    (decodeFinish s).dflags = flagsAtEnd s.dflags (decide (s.dopos.toNat < s.dsize.toNat)) := rfl

@[simp] theorem decodeFinish_trunc (s : State) :
    (decodeFinish s).trunc = decide (s.dopos.toNat < s.dsize.toNat) := by
  simp only [State.trunc, decodeFinish_dflags, flagsAtEnd_getLsbD]; simp

@[simp] theorem decodeFinish_clip (s : State) : (decodeFinish s).clip = s.clip := by
  simp only [State.clip, decodeFinish_dflags, flagsAtEnd_getLsbD]; simp

@[simp] theorem decodeFinish_zrun (s : State) : (decodeFinish s).zrun = s.zrun := by
  simp only [State.zrun, decodeFinish_dflags, flagsAtEnd_getLsbD]; simp

@[simp] theorem decodeFinish_dangle (s : State) : (decodeFinish s).dangle = s.dangle := by
  simp only [State.dangle, decodeFinish_dflags, flagsAtEnd_getLsbD]; simp

/-- A flag byte with its reserved bits 0 is its four flags (R17). -/
theorem flags_eq_of_bits {b c : Byte} (hb : b.toNat < 16) (hc : c.toNat < 16) (htrunc : b.getLsbD 0 = c.getLsbD 0)
    (hclip : b.getLsbD 1 = c.getLsbD 1) (hzrun : b.getLsbD 2 = c.getLsbD 2) (hdangle : b.getLsbD 3 = c.getLsbD 3) :
    b = c := by
  have key : ∀ b c : Fin 16, (∀ i : Fin 4, b.val.testBit i = c.val.testBit i) → b = c := by decide
  have hbits := key ⟨_, hb⟩ ⟨_, hc⟩ fun
    | 0 => htrunc
    | 1 => hclip
    | 2 => hzrun
    | 3 => hdangle
  exact BitVec.eq_of_toNat_eq (Fin.mk.inj hbits)

/-! ### One token on its own -/

theorem tokenBytes_ne_nil {s : State} (ha : s.decoderActive) : s.tokenBytes ≠ [] := by
  obtain ⟨-, hb⟩ | ⟨-, hb⟩ := tokenBytes_cases ha <;> simp [hb]

theorem exec_token_of_active {i : Instr} (hi : i.space = .token) {s : State} (ha : s.decoderActive) :
    exec i s = .next (tokenEffect i s) := by
  rw [exec_of_token hi, ifInterpreted, if_pos ha]

theorem exec_token_of_not_active {i : Instr} (hi : i.space = .token) {s : State} (ha : ¬ s.decoderActive) :
    exec i s = .next s := by
  rw [exec_of_token hi, ifInterpreted, if_neg ha]

theorem markerEffect_of_last {s : State} (h : s.dipos.toNat + 1 = s.dilen.toNat) (n : Nat) (v : Byte) :
    markerEffect n v s = danglingEffect s := if_pos h

theorem markerEffect_of_not_last {s : State} (h : s.dipos.toNat + 1 ≠ s.dilen.toNat) (n : Nat) (v : Byte) :
    markerEffect n v s = runEffect n v s := if_neg h

/-- Interpreted before the last input byte, `RUN n, v` has the effect of a run (R86, R87). -/
theorem exec_run_of_not_last {s : State} (ha : s.decoderActive) (hlast : s.dipos.toNat + 1 ≠ s.dilen.toNat) (n : BitVec 6)
    (v : Byte) : exec (.run n v) s = .next (runEffect n.toNat v s) ∧ TokenFrame s (runEffect n.toNat v s) := by
  rw [← markerEffect_of_not_last hlast]
  exact ⟨exec_token_of_active rfl ha, tokenEffect_frame (.run n v) s⟩

theorem exec_run0_of_not_last {s : State} (ha : s.decoderActive) (hlast : s.dipos.toNat + 1 ≠ s.dilen.toNat) (v : Byte) :
    exec (.run0 v) s = .next (runEffect 0 v s) ∧ TokenFrame s (runEffect 0 v s) := by
  rw [← markerEffect_of_not_last hlast]
  exact ⟨exec_token_of_active rfl ha, tokenEffect_frame (.run0 v) s⟩

/-- Inside the loop there is room for one byte, and one byte is left, so the cursors move by one without wrapping (R83). -/
theorem dopos_add_one_toNat {s : State} (ha : s.decoderActive) : (s.dopos + 1#AW).toNat = s.dopos.toNat + 1 := by
  have hroom := ha.1
  have hdsize := s.dsize.isLt
  exact toNat_add_ofNat_of_lt _ (by omega)

theorem dipos_add_one_toNat {s : State} (ha : s.decoderActive) : (s.dipos + 1#AW).toNat = s.dipos.toNat + 1 := by
  have hin := ha.2
  have hdilen := s.dilen.isLt
  exact toNat_add_ofNat_of_lt _ (by omega)

/-- With a value byte after the marker, `DIPOS` moves by two without wrapping. -/
theorem dipos_add_two_toNat {s : State} (ha : s.decoderActive) (hlast : s.dipos.toNat + 1 ≠ s.dilen.toNat) :
    (s.dipos + 2#AW).toNat = s.dipos.toNat + 2 := by
  have hin := ha.2
  have hdilen := s.dilen.isLt
  exact toNat_add_ofNat_of_lt _ (by omega)

theorem runEffect_dopos_toNat {s : State} (ha : s.decoderActive) (n : Nat) (v : Byte) :
    (runEffect n v s).dopos.toNat = s.dopos.toNat + min n s.outputRoom := by
  have hroom := ha.1
  have hdsize := s.dsize.isLt
  have hfits : min n s.outputRoom ≤ s.dsize.toNat - s.dopos.toNat := Nat.min_le_right _ _
  exact toNat_add_ofNat_of_lt _ (by omega)

theorem literalEffect_readByte_dout (v : Byte) (s : State) (a : Nat) :
    (literalEffect v s).readByte .dout a = if a = s.dopos.toNat then v else s.readByte .dout a := by
  simp only [State.readByte, State.mem, literalEffect_dout, Memory.byteAt_put]
  split <;> rfl

theorem runEffect_readByte_dout (n : Nat) (v : Byte) (s : State) (a : Nat) :
    (runEffect n v s).readByte .dout a =
      if s.dopos.toNat ≤ a ∧ a < s.dopos.toNat + min n s.outputRoom then v
      else s.readByte .dout a := by
  simp only [State.readByte, State.mem, runEffect_dout, Memory.byteAt_fill]
  split <;> rfl

@[simp] theorem danglingEffect_clip (s : State) : (danglingEffect s).clip = s.clip := by
  simp only [State.clip, danglingEffect_dflags, flagsAfterMark_getLsbD]; simp

@[simp] theorem danglingEffect_zrun (s : State) : (danglingEffect s).zrun = s.zrun := by
  simp only [State.zrun, danglingEffect_dflags, flagsAfterMark_getLsbD]; simp

@[simp] theorem danglingEffect_dangle (s : State) : (danglingEffect s).dangle = true := by
  simp only [State.dangle, danglingEffect_dflags, flagsAfterMark_getLsbD]; simp

/-- A run is clipped where its count passes the room (R87). -/
theorem runEffect_clip (n : Nat) (v : Byte) (s : State) :
    (runEffect n v s).clip = true ↔ s.outputRoom < n ∨ s.clip = true := by
  simp only [State.clip, runEffect_dflags, flagsAfterRun_getLsbD]
  simp

/-- A run sets `ZRUN` where its count is 0 (R88). -/
theorem runEffect_zrun (n : Nat) (v : Byte) (s : State) :
    (runEffect n v s).zrun = true ↔ n = 0 ∨ s.zrun = true := by
  simp only [State.zrun, runEffect_dflags, flagsAfterRun_getLsbD]
  simp

@[simp] theorem runEffect_dangle (n : Nat) (v : Byte) (s : State) : (runEffect n v s).dangle = s.dangle := by
  simp only [State.dangle, runEffect_dflags, flagsAfterRun_getLsbD]; simp

theorem flagsAfterRun_of_fits (b : Byte) {n : Nat} (h : n ≠ 0) : flagsAfterRun b n n = b := by
  simp [flagsAfterRun, h]

/-! ### The tokens interpreted in a row -/

theorem Memory.fill_eq_putAll (m : Memory) (a n : Nat) (v : Byte) : m.fill a n v = m.putAll a (List.replicate n v) := by
  induction n generalizing m a with
  | zero => rfl
  | succ n ih => exact ih (m.put a v) (a + 1)

theorem Memory.putAll_append (m : Memory) (a : Nat) (xs ys : List Byte) :
    m.putAll a (xs ++ ys) = (m.putAll a xs).putAll (a + xs.length) ys := by
  induction xs generalizing m a with
  | nil => rfl
  | cons x xs ih =>
    rw [List.cons_append, Memory.putAll, ih, Memory.putAll, List.length_cons, Nat.add_right_comm, Nat.add_assoc]

/-- What interpreting `toks` in `s` leaves in `t` (R84, R92): their output, cut to the room, lies in `DOUT` from `DOPOS` on, the
cursors have moved past it and past the tokens, and the flags say what happened besides what they said before. -/
structure Interpreted (s : State) (toks : List Instr) (t : State) : Prop where
  dipos : t.dipos.toNat = s.dipos.toNat + (toks.map Instr.length).sum
  dopos : t.dopos.toNat = s.dopos.toNat + min s.outputRoom (toks.flatMap outputOf).length
  dsize : t.dsize = s.dsize
  dout : t.dout = s.dout.putAll s.dopos.toNat ((toks.flatMap outputOf).take s.outputRoom)
  clip : t.clip = true ↔ s.clip = true ∨ s.outputRoom < (toks.flatMap outputOf).length
  zrun : t.zrun = true ↔ s.zrun = true ∨ ∃ v, Instr.run0 v ∈ toks
  dangle : t.dangle = true ↔ s.dangle = true ∨ ∃ n, Instr.mark n ∈ toks
  reserved : s.dflags.toNat < 16 → t.dflags.toNat < 16

theorem Interpreted.nil (s : State) : Interpreted s [] s := by
  constructor <;> simp [Memory.putAll]

theorem Interpreted.outputRoom_eq {s t : State} {toks : List Instr} (h : Interpreted s toks t) :
    t.outputRoom = s.outputRoom - (toks.flatMap outputOf).length := by
  have hdopos := h.dopos
  simp only [State.outputRoom, h.dsize] at hdopos ⊢
  omega

theorem Interpreted.append {s u t : State} {first later : List Instr} (h : Interpreted s first u) (h' : Interpreted u later t) :
    Interpreted s (first ++ later) t where
  dipos := by
    rw [h'.dipos, h.dipos, List.map_append, List.sum_append, Nat.add_assoc]
  dopos := by
    rw [h'.dopos, h.dopos, h.outputRoom_eq, List.flatMap_append, List.length_append]
    omega
  dsize := h'.dsize.trans h.dsize
  dout := by
    rw [h'.dout, h.dout, h.dopos, h.outputRoom_eq, List.flatMap_append, List.take_append, Memory.putAll_append,
      List.length_take]
  clip := by
    rw [h'.clip, h.clip, h.outputRoom_eq, List.flatMap_append, List.length_append, or_assoc]
    refine or_congr_right ?_
    omega
  zrun := by simp only [h'.zrun, h.zrun, List.mem_append, exists_or, or_assoc]
  dangle := by simp only [h'.dangle, h.dangle, List.mem_append, exists_or, or_assoc]
  reserved := h'.reserved ∘ h.reserved

theorem literalEffect_interpreted {s : State} (ha : s.decoderActive) (v : Byte) :
    Interpreted s [.lit v] (literalEffect v s) := by
  have hroom : 1 ≤ s.outputRoom := Nat.sub_pos_of_lt ha.1
  have htake : [v].take s.outputRoom = [v] := List.take_of_length_le hroom
  exact
    { dipos := dipos_add_one_toNat ha
      dopos := (dopos_add_one_toNat ha).trans (congrArg _ (Nat.min_eq_right hroom).symm)
      dsize := rfl
      dout := by simp [outputOf, htake, Memory.putAll]
      clip := by simp [State.clip, outputOf]; omega
      zrun := by simp [State.zrun]
      dangle := by simp [State.dangle]
      reserved := id }

theorem danglingEffect_interpreted {s : State} (ha : s.decoderActive) (n : BitVec 6) :
    Interpreted s [.mark n] (danglingEffect s) where
  dipos := dipos_add_one_toNat ha
  dopos := by simp [outputOf]
  dsize := rfl
  dout := by simp [outputOf, Memory.putAll]
  clip := by simp [outputOf]
  zrun := by simp
  dangle := by simp
  reserved := withBit_lt_16 _ 3 true (by decide)

theorem runEffect_interpreted {s : State} (ha : s.decoderActive) (hlast : s.dipos.toNat + 1 ≠ s.dilen.toNat) (n : BitVec 6)
    (v : Byte) : Interpreted s [markerToken n v] (runEffect n.toNat v s) where
  dipos := by simpa [markerToken_length] using dipos_add_two_toNat ha hlast
  dopos := by
    rw [runEffect_dopos_toNat ha, Nat.min_comm]
    simp [outputOf_markerToken]
  dsize := rfl
  dout := by simp [outputOf_markerToken, Memory.fill_eq_putAll, Nat.min_comm]
  clip := by simp [outputOf_markerToken, runEffect_clip, or_comm]
  zrun := by
    simp [markerToken_eq_run0_iff, runEffect_zrun, or_comm, ← BitVec.toNat_inj]
  dangle := by simp [markerToken_ne_mark]
  reserved := flagsAfterRun_lt_16 _ _ _

/-! ### The input left -/

/-- The input bytes from `p` on (R83). -/
def State.inputFrom (s : State) (p : Nat) : List Byte := (List.range' p (s.dilen.toNat - p)).map (s.readByte .din)

theorem State.inputFrom_zero (s : State) : s.inputFrom 0 = s.bytes .din s.dilen.toNat := by
  rw [State.inputFrom, State.bytes, List.range_eq_range', Nat.sub_zero]

theorem State.inputFrom_of_lt {s : State} {p : Nat} (h : p < s.dilen.toNat) :
    s.inputFrom p = s.readByte .din p :: s.inputFrom (p + 1) := by
  have hleft : s.dilen.toNat - p = s.dilen.toNat - (p + 1) + 1 := by omega
  rw [State.inputFrom, hleft, List.range'_succ, List.map_cons, State.inputFrom]

theorem State.inputFrom_of_le {s : State} {p : Nat} (h : s.dilen.toNat ≤ p) : s.inputFrom p = [] := by
  rw [State.inputFrom, Nat.sub_eq_zero_of_le h]
  rfl

theorem decStep_inputFrom {s : State} (ha : s.decoderActive) : (decStep s).inputFrom = s.inputFrom := by
  rw [decStep_eq ha]
  rfl

/-- `DecStep` interprets the first token of the input left, and leaves the rest of the input (R84). -/
theorem decStep_interpreted {s : State} (ha : s.decoderActive) :
    ∃ i, decodeToken (s.inputFrom s.dipos.toNat) = .ok (i, s.inputFrom (decStep s).dipos.toNat) ∧
      Interpreted s [i] (decStep s) := by
  have hcontrol := State.inputFrom_of_lt ha.2
  obtain ⟨c, rfl, hc, hstep⟩ | ⟨c, rfl, hc, hlast, hstep⟩ | ⟨c, v, rfl, rfl, hc, htwo, hstep⟩ := decStep_cases ha
  · refine ⟨_, ?_, hstep ▸ literalEffect_interpreted ha _⟩
    rw [hcontrol, decodeToken_of_not_marker ((isRunMarker_eq_false_iff _).mpr hc), hstep, literalEffect_dipos,
      dipos_add_one_toNat ha]
  · refine ⟨.mark (countField (s.readByte .din s.dipos.toNat)), ?_, hstep ▸ danglingEffect_interpreted ha _⟩
    rw [hcontrol, hstep, danglingEffect_dipos, dipos_add_one_toNat ha, State.inputFrom_of_le hlast.ge,
      decodeToken_of_last_marker ((isRunMarker_iff _).mpr hc)]
  · have hlast : s.dipos.toNat + 1 ≠ s.dilen.toNat := by omega
    refine ⟨_, ?_, hstep ▸ runEffect_interpreted ha hlast _ _⟩
    rw [hcontrol, State.inputFrom_of_lt htwo, decodeToken_of_marker ((isRunMarker_iff _).mpr hc), hstep, runEffect_dipos,
      dipos_add_two_toNat ha hlast, markerToken]

/-- The loop of `RLE.DEC` interprets the tokens of the input left, while there is room (R83, R92). -/
theorem decodeLoop_interpreted (fuel : Nat) (s : State) :
    Interpreted s (interpretedTokens fuel s.outputRoom (s.inputFrom s.dipos.toNat)) (decodeLoop fuel s) := by
  induction fuel generalizing s with
  | zero => exact .nil s
  | succ fuel ih =>
    by_cases ha : s.decoderActive
    · obtain ⟨i, hi, hdone⟩ := decStep_interpreted ha
      have hroom : s.outputRoom ≠ 0 := (Nat.sub_pos_of_lt ha.1).ne'
      have hrest := ih (decStep s)
      rw [hdone.outputRoom_eq, decStep_inputFrom ha, List.flatMap_singleton] at hrest
      simp only [interpretedTokens, if_neg hroom, hi, decodeLoop, if_pos ha]
      exact hdone.append hrest
    · have hnone : interpretedTokens (fuel + 1) s.outputRoom (s.inputFrom s.dipos.toNat) = [] := by
        obtain hfull | hend := not_and_or.mp ha
        · exact if_pos (Nat.sub_eq_zero_of_le (Nat.not_lt.mp hfull))
        · simp [interpretedTokens, State.inputFrom_of_le (Nat.not_lt.mp hend), decodeToken]
      rw [hnone, decodeLoop, if_neg ha]
      exact .nil s

@[simp] theorem decodeStart_clip (s : State) : (decodeStart s).clip = false := by simp [State.clip]
@[simp] theorem decodeStart_zrun (s : State) : (decodeStart s).zrun = false := by simp [State.zrun]
@[simp] theorem decodeStart_dangle (s : State) : (decodeStart s).dangle = false := by simp [State.dangle]
@[simp] theorem decodeStart_outputRoom (s : State) : (decodeStart s).outputRoom = s.dsize.toNat := rfl

/-- From its start, the loop interprets the tokens R92 speaks of. -/
theorem decodeLoop_start_interpreted (s : State) :
    Interpreted (decodeStart s) s.decodedTokens (decodeLoop s.dilen.toNat (decodeStart s)) := by
  have hinput : (decodeStart s).inputFrom 0 = s.bytes .din s.dilen.toNat := s.inputFrom_zero
  have hloop := decodeLoop_interpreted s.dilen.toNat (decodeStart s)
  rwa [decodeStart_outputRoom, decodeStart_dipos, BitVec.toNat_zero, hinput] at hloop

end Sys2Proof.Machine

namespace Sys2Proof.Machine

/-! ### The output of `RLE.DEC` -/

/-- With less room a stream gives the same output up to that room (R93 (f)). -/
theorem interpretedTokens_output_take (fuel : Nat) {room room' : Nat} (h : room ≤ room') (bytes : List Byte) :
    ((interpretedTokens fuel room bytes).flatMap outputOf).take room =
      ((interpretedTokens fuel room' bytes).flatMap outputOf).take room := by
  induction fuel generalizing room room' bytes with
  | zero => rfl
  | succ fuel ih =>
    by_cases hroom : room = 0
    · simp [hroom]
    · have hroom' : room' ≠ 0 := by omega
      simp only [interpretedTokens, if_neg hroom, if_neg hroom']
      cases decodeToken bytes with
      | error e => rfl
      | ok token =>
        simp only [List.flatMap_cons, List.take_append]
        rw [ih (Nat.sub_le_sub_right h _)]

/-- `DOUT` after the initialisation and the loop: the output, zeros up to `DSIZE`, and what was there before (R82, R92). -/
theorem byteAt_putAll_fill (m : Memory) {out : List Byte} {size : Nat} (h : out.length ≤ size) (a : Nat) :
    ((m.fill 0 size 0x00#8).putAll 0 out).byteAt a = if a < size then some (out.getD a 0x00#8) else m.byteAt a := by
  simp only [Memory.byteAt_putAll, Memory.byteAt_fill, Nat.zero_le, true_and, Nat.zero_add, Nat.sub_zero]
  by_cases hout : a < out.length
  · have hsize : a < size := by omega
    simp [hout, hsize]
  · simp [hout]

/-- What `RLE.DEC` leaves in `DOUT` (R92). -/
theorem decodeFinish_readByte_dout (s : State) (a : Nat) :
    (decodeFinish (decodeLoop s.dilen.toNat (decodeStart s))).readByte .dout a =
      if a < s.dsize.toNat then (s.decodedOutput.take s.dsize.toNat).getD a 0x00#8 else s.readByte .dout a := by
  have hdout : (decodeFinish (decodeLoop s.dilen.toNat (decodeStart s))).dout =
      (s.dout.fill 0 s.dsize.toNat 0x00#8).putAll 0 (s.decodedOutput.take s.dsize.toNat) :=
    (decodeLoop_start_interpreted s).dout
  have hepoch := (decodeFinish_frame s.dilen.toNat s).epoch
  rw [State.readByte, State.mem, hdout, hepoch, byteAt_putAll_fill _ (List.length_take_le _ _)]
  split <;> rfl

/-! ### What the output depends on -/

theorem State.bytes_congr {s₁ s₂ : State} {sp : ByteSpace} {n : Nat} (h : ∀ a, a < n → s₁.readByte sp a = s₂.readByte sp a) :
    s₁.bytes sp n = s₂.bytes sp n :=
  List.map_congr_left fun a ha => h a (List.mem_range.mp ha)

theorem decodedTokens_congr {s₁ s₂ : State} (hdilen : s₁.dilen = s₂.dilen) (hdsize : s₁.dsize = s₂.dsize)
    (hdin : ∀ a, a < s₁.dilen.toNat → s₁.readByte .din a = s₂.readByte .din a) : s₁.decodedTokens = s₂.decodedTokens := by
  rw [State.decodedTokens, State.decodedTokens, State.bytes_congr hdin, hdilen, hdsize]

/-- Up to the smaller of two sizes, the same input gives the same output (R93 (f)). -/
theorem decodedOutput_take {s₁ s₂ : State} (hdilen : s₁.dilen = s₂.dilen)
    (hdin : ∀ a, a < s₁.dilen.toNat → s₁.readByte .din a = s₂.readByte .din a) (hle : s₂.dsize.toNat ≤ s₁.dsize.toNat) :
    s₂.decodedOutput.take s₂.dsize.toNat = s₁.decodedOutput.take s₂.dsize.toNat := by
  rw [State.decodedOutput, State.decodedOutput, State.decodedTokens, State.decodedTokens, State.bytes_congr hdin, hdilen]
  exact interpretedTokens_output_take _ hle _

/-! ### A stream of `RUN0` tokens alone -/

/-- `RUN0` tokens take no room, so all of them are interpreted (R83, R88). -/
theorem interpretedTokens_zeroRuns (vs : List Byte) {fuel room : Nat} (hfuel : vs.length ≤ fuel) (hroom : room ≠ 0) :
    interpretedTokens fuel room (vs.flatMap fun v => encode (.run0 v)) = vs.map .run0 := by
  induction vs generalizing fuel with
  | nil => cases fuel <;> simp [interpretedTokens, decodeToken]
  | cons v vs ih =>
    obtain ⟨fuel, rfl⟩ : ∃ k, fuel = k + 1 := Nat.exists_eq_add_of_le' (by simp at hfuel; omega)
    have hfirst : decodeToken (encode (.run0 v) ++ vs.flatMap fun v => encode (.run0 v)) =
        .ok (.run0 v, vs.flatMap fun v => encode (.run0 v)) := decodeToken_encode rfl rfl nofun
    simp only [List.flatMap_cons, interpretedTokens, if_neg hroom, hfirst, outputOf, List.length_nil, Nat.sub_zero,
      List.map_cons]
    rw [ih (by simpa using hfuel)]

/-- An input whose even bytes are 0xC0 is a stream of `RUN0` tokens (R63). -/
theorem State.bytes_eq_zeroRuns {s : State} (k : Nat) (h : ∀ j, j < k → s.readByte .din (2 * j) = 0xC0#8) :
    s.bytes .din (2 * k) =
      ((List.range k).map fun j => s.readByte .din (2 * j + 1)).flatMap fun v => encode (.run0 v) := by
  induction k with
  | zero => rfl
  | succ k ih =>
    have hlast := h k (Nat.lt_succ_self k)
    have hfirst := ih fun j hj => h j (by omega)
    rw [State.bytes] at hfirst ⊢
    rw [Nat.mul_succ, List.range_succ, List.range_succ, List.range_succ]
    simp [hfirst, hlast, encode, Config.runMark]

theorem decodedTokens_of_zeroRuns {s : State} {k : Nat} (hsize : 0 < s.dsize.toNat) (hdilen : s.dilen.toNat = 2 * k)
    (h : ∀ j, j < k → s.readByte .din (2 * j) = 0xC0#8) :
    s.decodedTokens = (List.range k).map fun j => .run0 (s.readByte .din (2 * j + 1)) := by
  rw [State.decodedTokens, hdilen, State.bytes_eq_zeroRuns k h, interpretedTokens_zeroRuns _ (by simp; omega) hsize.ne',
    List.map_map]
  rfl

end Sys2Proof.Machine

namespace Sys2Proof.Machine

/-- Settles O10: the decoder answers on the bytes at `DIPOS`, with a token whose bytes are among them. -/
theorem decStepIsTheMeaningOfItsToken : Obligations.DecStepIsTheMeaningOfItsToken := by
  intro s ha
  obtain ⟨i, rest, hi⟩ := decodeToken_completes (tokenBytes_ne_nil ha)
  obtain ⟨hwf, hbytes⟩ := encode_decodeToken hi
  have htaken : i.length + rest.length = min 2 (s.dilen.toNat - s.dipos.toNat) := by
    simpa [encode_length, State.tokenBytes] using congrArg List.length hbytes
  exact ⟨i, rest, hi, decodeToken_space hi, hwf, by omega, exec_decoded ha hi⟩

/-- Settles O11: the literal's store and cursors; the room of the loop test is the room for it. -/
theorem literalStoresItself : Obligations.LiteralStoresItself := by
  intro s v ha
  refine ⟨literalEffect v s, exec_token_of_active rfl ha, ?_, fun a hne => ?_, dopos_add_one_toNat ha, ?_,
    dipos_add_one_toNat ha, rfl, tokenEffect_frame (.lit v) s⟩
  · rw [literalEffect_readByte_dout, if_pos rfl]
  · rw [literalEffect_readByte_dout, if_neg hne]
  · rw [literalEffect_dopos, dopos_add_one_toNat ha]
    exact ha.1

/-- Settles O12: where the count is at most the room, all copies are stored and no flag rule applies. -/
theorem runThatFitsStoresItsCopies : Obligations.RunThatFitsStoresItsCopies := by
  intro s n v ha hlast hn hfits
  have hall : min n.toNat s.outputRoom = n.toNat := Nat.min_eq_left hfits
  have hcount : n.toNat ≠ 0 := fun h => hn (BitVec.eq_of_toNat_eq h)
  obtain ⟨hexec, hframe⟩ := exec_run_of_not_last ha hlast n v
  refine ⟨_, hexec, fun a hlow hhigh => ?_, fun a hout => ?_, ?_, dipos_add_two_toNat ha hlast, ?_, hframe⟩
  · rw [runEffect_readByte_dout, hall, if_pos ⟨hlow, hhigh⟩]
  · rw [runEffect_readByte_dout, hall, if_neg (by omega)]
  · rw [runEffect_dopos_toNat ha, hall]
  · rw [runEffect_dflags, hall, flagsAfterRun_of_fits _ hcount]

/-- Settles O13: where the count passes the room, the copies fill the room exactly and `CLIP` is the one flag set. -/
theorem runThatDoesNotFitIsClipped : Obligations.RunThatDoesNotFitIsClipped := by
  intro s n v ha hlast hover
  have hcut : min n.toNat s.outputRoom = s.outputRoom := Nat.min_eq_right (Nat.le_of_lt hover)
  have hfull : s.dopos.toNat + s.outputRoom = s.dsize.toNat := Nat.add_sub_cancel' (Nat.le_of_lt ha.1)
  have hcount : n.toNat ≠ 0 := by omega
  have hdopos : (runEffect n.toNat v s).dopos = s.dsize := by
    apply BitVec.eq_of_toNat_eq
    rw [runEffect_dopos_toNat ha, hcut, hfull]
  obtain ⟨hexec, hframe⟩ := exec_run_of_not_last ha hlast n v
  refine ⟨_, hexec, fun a hlow hhigh => ?_, fun a hout => ?_, hdopos, dipos_add_two_toNat ha hlast,
    (runEffect_clip _ _ _).mpr (.inl hover), fun i hi => ?_, fun hactive => ?_, hframe⟩
  · rw [runEffect_readByte_dout, hcut, hfull, if_pos ⟨hlow, hhigh⟩]
  · rw [runEffect_readByte_dout, hcut, hfull, if_neg (by omega)]
  · rw [List.mem_singleton] at hi
    rw [runEffect_dflags, flagsAfterRun_getLsbD, if_neg (fun h => hi h.1), if_neg (fun h => hcount h.2)]
  · have hroom := hactive.1
    rw [hdopos] at hroom
    exact absurd hroom (Nat.lt_irrefl _)

/-- Settles O14: a run of no copies stores none, and `ZRUN` is the one flag set. -/
theorem zeroRunStoresNothing : Obligations.ZeroRunStoresNothing := by
  intro s v ha hlast
  obtain ⟨hexec, hframe⟩ := exec_run0_of_not_last ha hlast v
  refine ⟨_, hexec, fun a => ?_, BitVec.eq_of_toNat_eq ?_, dipos_add_two_toNat ha hlast, (runEffect_zrun _ _ _).mpr (.inl rfl),
    fun i hi => ?_, hframe⟩
  · rw [runEffect_readByte_dout, if_neg (by omega)]
  · rw [runEffect_dopos_toNat ha, Nat.zero_min, Nat.add_zero]
  · rw [List.mem_singleton] at hi
    rw [runEffect_dflags, flagsAfterRun_getLsbD, if_neg (fun h => Nat.not_lt_zero _ h.2), if_neg (fun h => hi h.1)]

/-- Settles O16: in the last input byte every form of a run marker has the dangling effect, after which the input is exhausted
with output room left. -/
theorem danglingMarkerIsConsumed : Obligations.DanglingMarkerIsConsumed := by
  intro s i ha hlast hform
  have hbytes : s.tokenBytes = [s.readByte .din s.dipos.toNat] := by
    obtain ⟨-, hb⟩ | ⟨htwo, -⟩ := tokenBytes_cases ha
    · exact hb
    · omega
  have hmarker : exec i s = .next (danglingEffect s) := by
    obtain ⟨n, rfl⟩ | ⟨n, v, rfl⟩ | ⟨v, rfl⟩ := hform
    · exact exec_token_of_active rfl ha
    · exact (exec_token_of_active rfl ha).trans (congrArg _ (markerEffect_of_last hlast _ _))
    · exact (exec_token_of_active rfl ha).trans (congrArg _ (markerEffect_of_last hlast _ _))
  have hend : (danglingEffect s).dipos = s.dilen := BitVec.eq_of_toNat_eq ((dipos_add_one_toNat ha).trans hlast)
  refine ⟨hbytes, danglingEffect s, hmarker, fun _ => rfl, rfl, hend, danglingEffect_dangle s, fun k hk => ?_,
    fun hactive => ?_, ?_, tokenEffect_frame (.mark 0#6) s⟩
  · rw [List.mem_singleton] at hk
    rw [danglingEffect_dflags, flagsAfterMark_getLsbD, if_neg hk]
  · have hleft := hactive.2
    rw [hend] at hleft
    exact absurd hleft (Nat.lt_irrefl _)
  · rw [decodeFinish_trunc]
    exact decide_eq_true ha.1

/-- Settles O17: outside the loop `ifInterpreted` leaves the state as it is. -/
theorem tokenOutsideTheLoopIsNotInterpreted : Obligations.TokenOutsideTheLoopIsNotInterpreted :=
  fun _ _ hi ha => exec_token_of_not_active hi ha

/-- Settles O18: the length check alone decides between the refusal and the run to the end. -/
theorem rleDecIsRefusedOnlyForLength : Obligations.RleDecIsRefusedOnlyForLength := by
  intro s
  by_cases hlong : s.decodeTooLong
  · exact ⟨_, execRleDec_refused hlong, fun _ => s.raise_refusedWith .badLength, fun hfits => absurd hlong hfits⟩
  · exact ⟨_, execRleDec_runs hlong, fun h => absurd h hlong, fun _ => rfl⟩

/-- Settles O19: what the loop leaves after the interpreted tokens, from cleared cursors and flags and a zero-filled `DOUT`. -/
theorem rleDecEndState : Obligations.RleDecEndState := by
  intro s hfits
  have hdone := decodeLoop_start_interpreted s
  have hkept : (decodeLoop s.dilen.toNat (decodeStart s)).status = s.status := decodeLoop_status _ _
  have hdopos : (decodeLoop s.dilen.toNat (decodeStart s)).dopos.toNat = min s.dsize.toNat s.decodedOutput.length :=
    hdone.dopos.trans (Nat.zero_add _)
  refine ⟨_, execRleDec_runs hfits, fun a ha => ?_, fun a ha => ?_, ?_, ?_, ?_, ?_, ?_, ?_, ?_, rfl, State.complete_ended _,
    State.complete_statusKept hkept, decodeLoop_pal _ _, decodeFinish_frame _ s⟩
  · rw [decodeFinish_readByte_dout, if_pos ha]
  · rw [decodeFinish_readByte_dout, if_neg (by omega)]
  · rw [List.length_take]
    exact hdopos
  · exact hdone.dipos.trans (Nat.zero_add _)
  · rw [decodeFinish_trunc, hdopos, hdone.dsize, decide_eq_decide, decodeStart_dsize, min_lt_iff]
    exact or_iff_right (Nat.lt_irrefl _)
  · rw [decodeFinish_clip, Bool.eq_iff_iff, decide_eq_true_iff]
    exact hdone.clip.trans (or_iff_right (by simp))
  · simpa using hdone.zrun
  · simpa using hdone.dangle
  · exact withBit_lt_16 _ 0 _ (by decide) (hdone.reserved (Nat.zero_lt_succ _))

/-- Settles O20: the end state of O19 speaks of the interpreted tokens and `DSIZE` alone, and those depend on the input alone. -/
theorem rleDecDependsOnItsInputAlone : Obligations.RleDecDependsOnItsInputAlone := by
  intro s₁ s₂ t₁ t₂ hfits₁ hfits₂ hdilen hdsize hdin hexec₁ hexec₂
  have htokens := decodedTokens_congr hdilen hdsize hdin
  have houtput : s₁.decodedOutput = s₂.decodedOutput := congrArg (List.flatMap outputOf) htokens
  obtain ⟨_, h₁, hdout₁, -, hdopos₁, hdipos₁, htrunc₁, hclip₁, hzrun₁, hdangle₁, hreserved₁, -⟩ := rleDecEndState s₁ hfits₁
  obtain ⟨_, h₂, hdout₂, -, hdopos₂, hdipos₂, htrunc₂, hclip₂, hzrun₂, hdangle₂, hreserved₂, -⟩ := rleDecEndState s₂ hfits₂
  obtain rfl := Host.Outcome.next.inj (h₁.symm.trans hexec₁)
  obtain rfl := Host.Outcome.next.inj (h₂.symm.trans hexec₂)
  rw [htokens] at hdipos₁ hzrun₁ hdangle₁
  rw [houtput, hdsize] at hdopos₁ htrunc₁ hclip₁ hdout₁
  refine ⟨BitVec.eq_of_toNat_eq (hdipos₁.trans hdipos₂.symm), BitVec.eq_of_toNat_eq (hdopos₁.trans hdopos₂.symm),
    flags_eq_of_bits hreserved₁ hreserved₂ (htrunc₁.trans htrunc₂.symm) (hclip₁.trans hclip₂.symm)
      (Bool.eq_iff_iff.mpr (hzrun₁.trans hzrun₂.symm)) (Bool.eq_iff_iff.mpr (hdangle₁.trans hdangle₂.symm)), fun a ha => ?_⟩
  rw [hdsize] at ha
  rw [hdout₁ a ha, hdout₂ a ha]

/-- Settles O21: up to the smaller size both outputs are the same, and the larger decoding reached that far. -/
theorem rleDecWithSmallerSizeGivesPrefix : Obligations.RleDecWithSmallerSizeGivesPrefix := by
  intro s₁ s₂ t₁ t₂ hfits₁ hfits₂ hdilen hdin hexec₁ hexec₂ hsize
  obtain ⟨_, h₁, hdout₁, -, hdopos₁, -⟩ := rleDecEndState s₁ hfits₁
  obtain ⟨_, h₂, hdout₂, -, hdopos₂, -, htrunc₂, -⟩ := rleDecEndState s₂ hfits₂
  obtain rfl := Host.Outcome.next.inj (h₁.symm.trans hexec₁)
  obtain rfl := Host.Outcome.next.inj (h₂.symm.trans hexec₂)
  rw [List.length_take] at hdopos₁ hdopos₂
  have hle : s₂.dsize.toNat ≤ s₁.dsize.toNat := by omega
  have hprefix := decodedOutput_take hdilen hdin hle
  have hlen : s₂.dsize.toNat ≤ s₂.decodedOutput.length := by
    have hlengths := congrArg List.length hprefix
    rw [List.length_take, List.length_take] at hlengths
    omega
  refine ⟨BitVec.eq_of_toNat_eq (by omega), htrunc₂.trans (decide_eq_false (by omega)), fun a ha => ?_⟩
  rw [hdout₂ a ha, hdout₁ a (by omega), hprefix]
  simp only [List.getD_eq_getElem?_getD, List.getElem?_take_of_lt ha, List.getElem?_take_of_lt (Nat.lt_of_lt_of_le ha hle)]

/-- Settles O15: the input is `k` tokens `RUN0`, whose end state is O19's with no output. -/
theorem nothingButZeroRunsExhaustsInput : Obligations.NothingButZeroRunsExhaustsInput := by
  intro s k hfits hsize hdilen hk hmarks
  have htokens := decodedTokens_of_zeroRuns hsize hdilen hmarks
  have houtput : s.decodedOutput = [] := by
    rw [State.decodedOutput, htokens]
    simp [outputOf]
  obtain ⟨t, hexec, hdout, -, hdopos, hdipos, htrunc, hclip, hzrun, hdangle, hreserved, -⟩ := rleDecEndState s hfits
  refine ⟨t, hexec, BitVec.eq_of_toNat_eq ?_, BitVec.eq_of_toNat_eq ?_, ?_, fun a ha => ?_⟩
  · rw [hdipos, htokens, hdilen]
    simp [Instr.length, Nat.mul_comm, Function.comp_def]
  · rw [hdopos, houtput]
    simp
  · have hzero : t.zrun = true := by
      rw [hzrun, htokens]
      exact ⟨s.readByte .din 1, List.mem_map.mpr ⟨0, List.mem_range.mpr hk, rfl⟩⟩
    have hmark : t.dangle = false := by simp [Bool.eq_false_iff, hdangle, htokens]
    rw [houtput] at htrunc hclip
    exact flags_eq_of_bits hreserved (by decide) (htrunc.trans (decide_eq_true hsize)) hclip hzero hmark
  · rw [hdout a ha, houtput]
    simp

end Sys2Proof.Machine

/-! # Proofs, RLE encoder (41_rle_encode.md): the run length and one token, the tokens `RLE.ENC` emits and its end state, and
that decoding the output gives the raw bytes back -/

namespace Sys2Proof

/-! ### The token of a run -/

theorem runControl_ofNat {n : Nat} (h : n < 64) : runControl (BitVec.ofNat 6 n) = 0xC0#8 ||| BitVec.ofNat 8 n := by
  have hcount : (BitVec.ofNat 6 n).setWidth 8 = BitVec.ofNat 8 n := by
    apply BitVec.eq_of_toNat_eq
    rw [BitVec.toNat_setWidth, BitVec.toNat_ofNat, BitVec.toNat_ofNat]
    omega
  rw [runControl, hcount, Config.runMark]

/-- More than one byte, or a byte that would read as a marker, takes a run token (R104). -/
theorem runToken_eq_run {n : Nat} {v : Byte} (h : 1 < n ∨ 0xC0 ≤ v.toNat) : runToken n v = .run (BitVec.ofNat 6 n) v :=
  if_pos (h.imp_right (isRunMarker_iff v).mpr)

/-- A single byte below 0xC0 stands for itself (R104). -/
theorem runToken_eq_lit {n : Nat} {v : Byte} (hn : n ≤ 1) (hv : v.toNat < 0xC0) : runToken n v = .lit v :=
  if_neg (by rw [isRunMarker_iff]; omega)

/-- A token as the encoder makes it (R67, R107 (c)): no `RUN0`, no `MARK`, no run of 1 of a low byte. -/
def Instr.Canonical (i : Instr) : Prop :=
  (∃ v : Byte, i = .lit v ∧ v.toNat < 0xC0) ∨
    ∃ (n : BitVec 6) (v : Byte), i = .run n v ∧ n ≠ 0#6 ∧ (n = 1#6 → 0xC0 ≤ v.toNat)

theorem runToken_canonical {n : Nat} (hlow : 1 ≤ n) (hhigh : n ≤ 63) (v : Byte) : (runToken n v).Canonical := by
  have hcount : (BitVec.ofNat 6 n).toNat = n := Nat.mod_eq_of_lt (by omega)
  by_cases h : 1 < n ∨ 0xC0 ≤ v.toNat
  · refine .inr ⟨_, v, runToken_eq_run h, fun hzero => ?_, fun hone => ?_⟩
    · rw [hzero] at hcount
      exact absurd hcount.symm (Nat.ne_of_gt hlow)
    · rw [hone] at hcount
      exact h.resolve_left (Nat.not_lt.mpr hcount.ge)
  · obtain ⟨hn, hv⟩ := not_or.mp h
    exact .inl ⟨v, runToken_eq_lit (Nat.not_lt.mp hn) (Nat.not_le.mp hv), Nat.not_le.mp hv⟩

theorem Instr.Canonical.space {i : Instr} (h : i.Canonical) : i.space = .token := by
  obtain ⟨v, rfl, -⟩ | ⟨n, v, rfl, -⟩ := h <;> rfl

theorem Instr.Canonical.wf {i : Instr} (h : i.Canonical) : i.wf = true := by
  obtain ⟨v, rfl, hv⟩ | ⟨n, v, rfl, hn, -⟩ := h
  · exact decide_eq_true hv
  · exact decide_eq_true hn

theorem Instr.Canonical.ne_mark {i : Instr} (h : i.Canonical) (n : BitVec 6) : i ≠ .mark n := by
  obtain ⟨v, rfl, -⟩ | ⟨m, v, rfl, -⟩ := h <;> nofun

theorem Instr.Canonical.ne_run0 {i : Instr} (h : i.Canonical) (v : Byte) : i ≠ .run0 v := by
  obtain ⟨w, rfl, -⟩ | ⟨n, w, rfl, -⟩ := h <;> nofun

end Sys2Proof

namespace Sys2Proof.Machine

theorem outputOf_runToken {n : Nat} (hlow : 1 ≤ n) (hhigh : n ≤ 63) (v : Byte) :
    outputOf (runToken n v) = List.replicate n v := by
  by_cases h : 1 < n ∨ 0xC0 ≤ v.toNat
  · have hcount : (BitVec.ofNat 6 n).toNat = n := Nat.mod_eq_of_lt (by omega)
    rw [runToken_eq_run h, outputOf, hcount]
  · obtain rfl : n = 1 := by omega
    rw [runToken_eq_lit (Nat.le_refl 1) (by omega)]
    rfl

theorem tokenValue_runToken (n : Nat) (v : Byte) : tokenValue (runToken n v) = some v := by
  unfold runToken
  split <;> rfl

/-- A canonical token gives 1 to 63 bytes, and takes one byte for one, or two. -/
theorem canonical_sizes {i : Instr} (h : i.Canonical) :
    1 ≤ (outputOf i).length ∧ (encode i).length ≤ 2 * (outputOf i).length ∧
      (outputOf i).length ≤ 63 * (encode i).length := by
  obtain ⟨v, rfl, -⟩ | ⟨n, v, rfl, hn, -⟩ := h
  · simp [outputOf, encode]
  · have hlow : n.toNat ≠ 0 := fun hzero => hn (BitVec.eq_of_toNat_eq hzero)
    have hhigh := n.isLt
    simp only [outputOf, encode, List.length_replicate, List.length_cons, List.length_nil]
    omega

/-- The sizes of a stream of canonical tokens against its output (R107 (b)). -/
theorem canonical_stream_sizes {toks : List Instr} (h : ∀ i ∈ toks, i.Canonical) :
    (toks.flatMap encode).length ≤ 2 * (toks.flatMap outputOf).length ∧
      (toks.flatMap outputOf).length ≤ 63 * (toks.flatMap encode).length := by
  induction toks with
  | nil => simp
  | cons i toks ih =>
    obtain ⟨hi, htoks⟩ := List.forall_mem_cons.mp h
    obtain ⟨-, hencode, houtput⟩ := canonical_sizes hi
    have hrest := ih htoks
    simp only [List.flatMap_cons, List.length_append]
    omega

/-! ### The run length (R103) -/

theorem extendRun_le (byteOf : Nat → Byte) (len p : Nat) (v : Byte) (fuel n : Nat) :
    extendRun byteOf len p v fuel n ≤ n + fuel := by
  induction fuel generalizing n with
  | zero => exact Nat.le_refl n
  | succ fuel ih =>
    unfold extendRun
    split
    · have := ih (n + 1)
      omega
    · omega

/-- A run of `v` that is extended stays a run of `v`. -/
theorem extendRun_bytes {byteOf : Nat → Byte} {len p : Nat} {v : Byte} (fuel : Nat) {n : Nat}
    (h : ∀ j, j < n → byteOf (p + j) = v) : ∀ j, j < extendRun byteOf len p v fuel n → byteOf (p + j) = v := by
  induction fuel generalizing n with
  | zero => exact h
  | succ fuel ih =>
    unfold extendRun
    split
    · next hmore =>
      refine ih fun j hj => ?_
      obtain hlt | rfl := Nat.lt_succ_iff_lt_or_eq.mp hj
      · exact h j hlt
      · exact hmore.2
    · exact h

/-- Extending stops at no run shorter than one that the fuel, the input and the bytes allow. -/
theorem le_extendRun {byteOf : Nat → Byte} {len p : Nat} {v : Byte} {m : Nat} (hlen : p + m ≤ len)
    (h : ∀ j, j < m → byteOf (p + j) = v) {fuel n : Nat} (hfuel : m ≤ n + fuel) :
    m ≤ extendRun byteOf len p v fuel n := by
  induction fuel generalizing n with
  | zero => exact hfuel
  | succ fuel ih =>
    unfold extendRun
    split
    · exact ih (by omega)
    · next hstop =>
      by_contra hshort
      have hn : n < m := Nat.not_le.mp hshort
      exact hstop ⟨by omega, h n hn⟩

theorem runLength_le (byteOf : Nat → Byte) (len p : Nat) : runLength byteOf len p ≤ 63 := extendRun_le _ _ _ _ _ _

/-- The bytes of `byteOf` from `p` up to `len`. -/
def bytesBetween (byteOf : Nat → Byte) (p len : Nat) : List Byte := (List.range' p (len - p)).map byteOf

theorem bytesBetween_zero (s : State) (sp : ByteSpace) (n : Nat) : bytesBetween (s.readByte sp) 0 n = s.bytes sp n := by
  rw [bytesBetween, State.bytes, List.range_eq_range', Nat.sub_zero]

@[simp] theorem bytesBetween_length (byteOf : Nat → Byte) (p len : Nat) : (bytesBetween byteOf p len).length = len - p := by
  simp [bytesBetween]

theorem bytesBetween_of_lt (byteOf : Nat → Byte) {p len : Nat} (h : p < len) :
    bytesBetween byteOf p len = byteOf p :: bytesBetween byteOf (p + 1) len := by
  have hleft : len - p = len - (p + 1) + 1 := by omega
  rw [bytesBetween, hleft, List.range'_succ, List.map_cons, bytesBetween]

theorem bytesBetween_of_le (byteOf : Nat → Byte) {p len : Nat} (h : len ≤ p) : bytesBetween byteOf p len = [] := by
  rw [bytesBetween, Nat.sub_eq_zero_of_le h]
  rfl

theorem bytesBetween_drop (byteOf : Nat → Byte) (p len n : Nat) :
    (bytesBetween byteOf p len).drop n = bytesBetween byteOf (p + n) len := by
  rw [bytesBetween, bytesBetween, ← List.map_drop, List.drop_range', Nat.mul_one, Nat.sub_sub]

/-- How far a run is extended is how far the bytes left go on with its value, capped by the fuel. -/
theorem extendRun_eq (byteOf : Nat → Byte) (len p : Nat) (v : Byte) (fuel n : Nat) :
    extendRun byteOf len p v fuel n =
      n + min fuel ((bytesBetween byteOf (p + n) len).takeWhile (· == v)).length := by
  induction fuel generalizing n with
  | zero => simp [extendRun]
  | succ fuel ih =>
    unfold extendRun
    by_cases hlen : p + n < len
    · rw [bytesBetween_of_lt byteOf hlen, List.takeWhile_cons]
      by_cases hv : byteOf (p + n) = v
      · rw [if_pos ⟨hlen, hv⟩, if_pos (beq_iff_eq.mpr hv), ih, List.length_cons, ← Nat.add_assoc p n 1]
        omega
      · rw [if_neg (fun h => hv h.2), if_neg (fun h => hv (beq_iff_eq.mp h))]
        simp
    · rw [if_neg (fun h => hlen h.1), bytesBetween_of_le byteOf (Nat.not_lt.mp hlen)]
      simp

/-- `RunLength(p)` is the length of the run the bytes from `p` open with. -/
theorem runLength_eq_leadingRun (byteOf : Nat → Byte) {len p : Nat} (h : p < len) :
    runLength byteOf len p = leadingRun (bytesBetween byteOf p len) := by
  rw [bytesBetween_of_lt byteOf h, leadingRun, runLength, extendRun_eq, Config.runMax]
  omega

/-! ### The tokens of a byte sequence -/

theorem takeWhile_split (v : Byte) (vs : List Byte) : ∃ rest,
    vs = List.replicate (vs.takeWhile (· == v)).length v ++ rest ∧ rest.head? ≠ some v := by
  induction vs with
  | nil => exact ⟨[], rfl, nofun⟩
  | cons w vs ih =>
    by_cases hw : w = v
    · obtain ⟨rest, hvs, hhead⟩ := ih
      subst hw
      refine ⟨rest, ?_, hhead⟩
      rw [List.takeWhile_cons, if_pos (beq_self_eq_true w), List.length_cons, List.replicate_succ, List.cons_append, ← hvs]
    · exact ⟨w :: vs, by simp [hw], fun h => hw (Option.some.inj h)⟩

/-- The run a byte sequence opens with, and what comes after it: not the same byte, unless the run is full (R103). -/
theorem leadingRun_split (v : Byte) (vs : List Byte) : ∃ rest,
    v :: vs = List.replicate (leadingRun (v :: vs)) v ++ rest ∧
      (leadingRun (v :: vs) ≠ 63 → rest.head? ≠ some v) := by
  obtain ⟨rest, hvs, hhead⟩ := takeWhile_split v vs
  have hrun : leadingRun (v :: vs) = min 63 (1 + (vs.takeWhile (· == v)).length) := rfl
  generalize (vs.takeWhile (· == v)).length = k at hvs hrun
  refine ⟨List.replicate (1 + k - leadingRun (v :: vs)) v ++ rest, ?_, fun hshort => ?_⟩
  · rw [← List.append_assoc, List.replicate_append_replicate, Nat.add_sub_cancel' (by omega), Nat.add_comm 1 k,
      List.replicate_succ, List.cons_append, ← hvs]
  · rw [hrun, Nat.sub_eq_zero_of_le (by omega)]
    exact hhead

/-- What the encoder does at a byte: it emits the token of the run there and goes on after the run (R102, R104). -/
theorem emittedTokens_cons (fuel : Nat) (v : Byte) (vs : List Byte) : ∃ n rest,
    1 ≤ n ∧ n ≤ 63 ∧ v :: vs = List.replicate n v ++ rest ∧ (n ≠ 63 → rest.head? ≠ some v) ∧
      emittedTokens (fuel + 1) (v :: vs) = runToken n v :: emittedTokens fuel rest := by
  obtain ⟨rest, hsplit, hhead⟩ := leadingRun_split v vs
  refine ⟨leadingRun (v :: vs), rest, le_min (by decide) (Nat.le_add_right 1 _), Nat.min_le_left _ _, hsplit, hhead, ?_⟩
  have hrest : (v :: vs).drop (leadingRun (v :: vs)) = rest := by
    conv_lhs => arg 2; rw [hsplit]
    exact List.drop_left' List.length_replicate
  rw [emittedTokens, hrest]

theorem emittedTokens_nil (fuel : Nat) : emittedTokens fuel [] = [] := by
  cases fuel <;> rfl

/-- The tokens' outputs are the bytes they were made from (R107 (c)). -/
theorem emittedTokens_output {fuel : Nat} {raw : List Byte} (hfuel : raw.length ≤ fuel) :
    (emittedTokens fuel raw).flatMap outputOf = raw := by
  induction fuel generalizing raw with
  | zero => exact (List.eq_nil_of_length_eq_zero (Nat.le_zero.mp hfuel)).symm
  | succ fuel ih =>
    cases raw with
    | nil => rfl
    | cons v vs =>
      obtain ⟨n, rest, hlow, hhigh, hsplit, -, htokens⟩ := emittedTokens_cons fuel v vs
      have hlen := congrArg List.length hsplit
      rw [List.length_append, List.length_replicate] at hlen
      rw [htokens, List.flatMap_cons, outputOf_runToken hlow hhigh, ih (by omega), hsplit]

theorem emittedTokens_canonical (fuel : Nat) (raw : List Byte) : ∀ i ∈ emittedTokens fuel raw, i.Canonical := by
  induction fuel generalizing raw with
  | zero => nofun
  | succ fuel ih =>
    cases raw with
    | nil => nofun
    | cons v vs =>
      obtain ⟨n, rest, hlow, hhigh, -, -, htokens⟩ := emittedTokens_cons fuel v vs
      rw [htokens]
      exact List.forall_mem_cons.mpr ⟨runToken_canonical hlow hhigh v, ih rest⟩

/-- Neighbours in the encoder's output: one value in both only after a full run (R67, R107 (c)). -/
def MayPrecede (i j : Instr) : Prop := tokenValue i = tokenValue j → ∃ v, i = .run 63#6 v

theorem emittedTokens_head_value {fuel : Nat} {raw : List Byte} {i : Instr} (h : i ∈ (emittedTokens fuel raw).head?) :
    tokenValue i = raw.head? := by
  cases fuel with
  | zero => cases h
  | succ fuel =>
    cases raw with
    | nil => cases h
    | cons v vs =>
      obtain rfl := Option.some.inj h
      exact tokenValue_runToken _ v

theorem emittedTokens_isChain (fuel : Nat) (raw : List Byte) : (emittedTokens fuel raw).IsChain MayPrecede := by
  induction fuel generalizing raw with
  | zero => exact .nil
  | succ fuel ih =>
    cases raw with
    | nil => exact .nil
    | cons v vs =>
      obtain ⟨n, rest, -, -, -, hhead, htokens⟩ := emittedTokens_cons fuel v vs
      rw [htokens, List.isChain_cons]
      refine ⟨fun j hj hvalue => ?_, ih rest⟩
      rw [tokenValue_runToken, emittedTokens_head_value hj] at hvalue
      obtain rfl : n = 63 := by_contra fun hshort => hhead hshort hvalue.symm
      exact ⟨v, runToken_eq_run (.inl (by decide))⟩

/-! ### An input of equal bytes (R73) -/

theorem pseudoRep_of_lt {k : Nat} (hlow : 1 ≤ k) (hhigh : k < 63) (v : Byte) : pseudoRep k v = [runToken k v] := by
  rw [pseudoRep, Config.runMax, Nat.div_eq_of_lt hhigh, Nat.mod_eq_of_lt hhigh, if_neg (by omega)]
  rfl

/-- A full run in front of `REP k, v` is `REP 63 + k, v`. -/
theorem pseudoRep_add (k : Nat) (v : Byte) : pseudoRep (63 + k) v = runToken 63 v :: pseudoRep k v := by
  rw [runToken_eq_run (.inl (by decide)), pseudoRep, pseudoRep, Config.runMax, Nat.add_div_left k (by decide),
    Nat.add_mod_left, List.replicate_succ, List.cons_append]

theorem emittedTokens_replicate {fuel k : Nat} (hfuel : k ≤ fuel) (v : Byte) :
    emittedTokens fuel (List.replicate k v) = pseudoRep k v := by
  induction fuel generalizing k with
  | zero => obtain rfl := Nat.le_zero.mp hfuel; rfl
  | succ fuel ih =>
    cases k with
    | zero => rfl
    | succ k =>
      obtain ⟨n, rest, hlow, hhigh, hsplit, hhead, htokens⟩ := emittedTokens_cons fuel v (List.replicate k v)
      obtain ⟨hlen, -, hrest⟩ := List.replicate_eq_append_iff.mp (List.replicate_succ.trans hsplit)
      rw [List.length_replicate] at hlen
      rw [List.replicate_succ, htokens, hrest, ih (by omega), ← hlen]
      by_cases hfull : n = 63
      · rw [hfull, pseudoRep_add]
      · have hend : rest.length = 0 := by
          by_contra hne
          refine hhead hfull ?_
          rw [hrest, List.head?_replicate, if_neg hne]
        rw [hend, Nat.add_zero, pseudoRep_of_lt hlow (by omega)]
        rfl

/-! ### One `EncStep` (R102) -/

theorem encStep_eolen_toNat {s : State} (hroom : s.eolen.toNat + 1 < 2 * s.eilen.toNat) :
    (encStep s).eolen.toNat = s.eolen.toNat + (encode s.encoderToken).length := by
  have hlen := encoderToken_length_le s
  have hwidth := s.eilen.isLt
  exact toNat_add_ofNat_of_lt _ (by omega)

/-- What reads of `EOUT` give after a list of bytes was stored from `p` on. -/
theorem readByte_eout_of_putAll {s t : State} {p : Nat} {out : List Byte} (heout : t.eout = s.eout.putAll p out)
    (hepoch : t.epoch = s.epoch) (a : Nat) :
    t.readByte .eout a = if p ≤ a ∧ a < p + out.length then out.getD (a - p) 0x00#8 else s.readByte .eout a := by
  rw [State.readByte, State.mem, heout, hepoch, Memory.byteAt_putAll]
  split
  · next hin =>
    have hlt : a - p < out.length := by omega
    simp [hlt]
  · rfl

theorem encStep_readByte_eout (s : State) (a : Nat) : (encStep s).readByte .eout a =
    if s.eolen.toNat ≤ a ∧ a < s.eolen.toNat + (encode s.encoderToken).length then
      (encode s.encoderToken).getD (a - s.eolen.toNat) 0x00#8
    else s.readByte .eout a :=
  readByte_eout_of_putAll (encStep_eout s) (encStep_epoch s) a

/-! ### The tokens emitted in a row -/

/-- What emitting `toks` in `s` leaves in `t` (R102): their bytes lie in `EOUT` from `EOLEN` on, and the cursors have moved past
them and past the bytes they stand for. -/
structure Emitted (s : State) (toks : List Instr) (t : State) : Prop where
  eipos : t.eipos.toNat = s.eipos.toNat + (toks.flatMap outputOf).length
  eolen : t.eolen.toNat = s.eolen.toNat + (toks.flatMap encode).length
  eout : t.eout = s.eout.putAll s.eolen.toNat (toks.flatMap encode)

theorem Emitted.nil (s : State) : Emitted s [] s := ⟨rfl, rfl, rfl⟩

theorem Emitted.append {s u t : State} {first later : List Instr} (h : Emitted s first u) (h' : Emitted u later t) :
    Emitted s (first ++ later) t where
  eipos := by rw [h'.eipos, h.eipos, List.flatMap_append, List.length_append, Nat.add_assoc]
  eolen := by rw [h'.eolen, h.eolen, List.flatMap_append, List.length_append, Nat.add_assoc]
  eout := by rw [h'.eout, h.eout, h.eolen, List.flatMap_append, Memory.putAll_append]

theorem encStep_emitted {s : State} (ha : s.encoderActive) (hroom : s.eolen.toNat + 1 < 2 * s.eilen.toNat) :
    Emitted s [s.encoderToken] (encStep s) where
  eipos := by
    rw [encStep_eipos_toNat ha, List.flatMap_singleton, State.encoderToken,
      outputOf_runToken (encoderRun_bounds ha).1 (runLength_le _ _ _), List.length_replicate]
  eolen := by rw [encStep_eolen_toNat hroom, List.flatMap_singleton]
  eout := by rw [encStep_eout, List.flatMap_singleton]

/-- The raw bytes not yet consumed when `EIPOS` is `p`. -/
def State.rawFrom (s : State) (p : Nat) : List Byte := bytesBetween (s.readByte .ein) p s.eilen.toNat

/-- The token of `EncStep` is the first one of the raw bytes left (R102, R104). -/
theorem emittedTokens_rawFrom (fuel : Nat) {s : State} (ha : s.encoderActive) :
    emittedTokens (fuel + 1) (s.rawFrom s.eipos.toNat) =
      s.encoderToken :: emittedTokens fuel ((encStep s).rawFrom (encStep s).eipos.toNat) := by
  have hrun : s.encoderRun = leadingRun (s.rawFrom s.eipos.toNat) := runLength_eq_leadingRun _ ha
  have hrest : (s.rawFrom s.eipos.toNat).drop s.encoderRun = (encStep s).rawFrom (encStep s).eipos.toNat := by
    rw [encStep_eipos_toNat ha]
    exact bytesBetween_drop _ _ _ _
  have hfirst : s.rawFrom s.eipos.toNat = s.readByte .ein s.eipos.toNat :: s.rawFrom (s.eipos.toNat + 1) :=
    bytesBetween_of_lt _ ha
  rw [← hrest, State.encoderToken, hrun, hfirst, emittedTokens]

/-- The loop of `RLE.ENC` emits the tokens of the raw bytes left (R105). -/
theorem encodeLoop_emitted (fuel : Nat) {s : State} (hbound : s.eolen.toNat ≤ 2 * s.eipos.toNat) :
    Emitted s (emittedTokens fuel (s.rawFrom s.eipos.toNat)) (encodeLoop fuel s) := by
  induction fuel generalizing s with
  | zero => exact .nil s
  | succ fuel ih =>
    by_cases ha : s.encoderActive
    · have hrest := ih (encStep_eout_bound ha hbound).2
      rw [encodeLoop, if_pos ha, emittedTokens_rawFrom fuel ha]
      exact (encStep_emitted ha (by omega)).append hrest
    · have hnone : s.rawFrom s.eipos.toNat = [] := bytesBetween_of_le _ (Nat.not_lt.mp ha)
      rw [encodeLoop, if_neg ha, hnone, emittedTokens_nil]
      exact .nil s

/-! ### The end of `RLE.ENC` -/

/-- The tokens `RLE.ENC` emits (R105). -/
def State.encoderTokens (s : State) : List Instr := emittedTokens s.eilen.toNat (s.bytes .ein s.eilen.toNat)

theorem State.encodedStream_eq_tokens (s : State) : s.encodedStream = s.encoderTokens.flatMap encode := rfl

theorem State.encoderTokens_output (s : State) : s.encoderTokens.flatMap outputOf = s.bytes .ein s.eilen.toNat :=
  emittedTokens_output (State.bytes_length _ _ _).le

theorem State.encoderTokens_canonical (s : State) : ∀ i ∈ s.encoderTokens, i.Canonical := emittedTokens_canonical _ _

theorem encodeLoop_start_emitted (s : State) :
    Emitted (encodeStart s) s.encoderTokens (encodeLoop s.eilen.toNat (encodeStart s)) := by
  have hraw : (encodeStart s).rawFrom 0 = s.bytes .ein s.eilen.toNat := bytesBetween_zero s .ein _
  rw [State.encoderTokens, ← hraw]
  exact encodeLoop_emitted _ (Nat.le_refl 0)

theorem State.withEout_mem (s : State) (m : Memory) {sp : ByteSpace} (h : sp ∉ [ByteSpace.eout]) :
    State.mem { s with eout := m } sp = s.mem sp := by
  cases sp with
  | eout => simp at h
  | _ => rfl

theorem encStep_frame (s : State) : Frame s (encStep s) [0x0A, 0x0B] [.eout] :=
  .of_cells [(0x0A, _), (0x0B, _)] rfl (fun _ hsp => s.withEout_mem _ hsp) rfl rfl rfl rfl rfl rfl

/-- The frame of the loop of `RLE.ENC` and of its end, from the state it began in. -/
theorem encodeLoop_complete_frame (fuel : Nat) (s : State) :
    Frame s (encodeLoop fuel (encodeStart s)).complete [0x01, 0x02, 0x0A, 0x0B] [.eout] := by
  rw [encodeLoop_eq]
  exact .of_cells [(0x01, _), (0x02, _), (0x0A, _), (0x0B, _)] rfl (fun _ hsp => s.withEout_mem _ hsp)
    rfl rfl rfl rfl rfl rfl

theorem execRleEnc_refused {s : State} (h : s.encodeTooLong) : exec .rleEnc s = .next (s.raise .badLength) :=
  congrArg Host.Outcome.next (if_pos h)

theorem execRleEnc_runs {s : State} (h : ¬ s.encodeTooLong) :
    exec .rleEnc s = .next (encodeLoop s.eilen.toNat (encodeStart s)).complete :=
  congrArg Host.Outcome.next (if_neg h)

/-- The largest extents hold every input `EILEN` can name, and its worst-case output (R46, R101). -/
theorem not_encodeTooLong_of_largest {s : State} (hein : s.params.einCap = 2 ^ AW - 1)
    (heout : s.params.eoutCap = 2 ^ (AW + 1) - 2) : ¬ s.encodeTooLong := by
  have hwidth := s.eilen.isLt
  rw [State.encodeTooLong, hein, heout]
  omega

/-- What reads of `EOUT` give after `RLE.ENC` (R105). -/
theorem encodeLoop_complete_readByte_eout (s : State) (a : Nat) :
    (encodeLoop s.eilen.toNat (encodeStart s)).complete.readByte .eout a =
      if a < s.encodedStream.length then s.encodedStream.getD a 0x00#8 else s.readByte .eout a := by
  have heout : (encodeLoop s.eilen.toNat (encodeStart s)).complete.eout = s.eout.putAll 0 s.encodedStream :=
    (encodeLoop_start_emitted s).eout
  rw [readByte_eout_of_putAll heout (encodeLoop_complete_frame _ s).epoch a]
  simp only [Nat.zero_le, true_and, Nat.zero_add, Nat.sub_zero]

/-- What `RLE.ENC` leaves for a reader of its output: the stream of its tokens, of length `EOLEN` (R105). -/
theorem execRleEnc_stream {s t : State} (hfits : ¬ s.encodeTooLong) (hexec : exec .rleEnc s = .next t) :
    t.eolen.toNat = s.encodedStream.length ∧ t.bytes .eout t.eolen.toNat = s.encodedStream := by
  obtain rfl := Host.Outcome.next.inj ((execRleEnc_runs hfits).symm.trans hexec)
  have heolen : (encodeLoop s.eilen.toNat (encodeStart s)).complete.eolen.toNat = s.encodedStream.length :=
    (encodeLoop_start_emitted s).eolen.trans (Nat.zero_add _)
  refine ⟨heolen, List.ext_getElem (by rw [State.bytes_length, heolen]) fun a _ ha => ?_⟩
  simp only [State.bytes, List.getElem_map, List.getElem_range]
  rw [encodeLoop_complete_readByte_eout, if_pos ha, List.getD_eq_getElem _ _ ha]

/-! ### Decoding a stream of canonical tokens (R106, R110) -/

theorem decodeToken_canonical {i : Instr} (h : i.Canonical) (rest : List Byte) :
    decodeToken (encode i ++ rest) = .ok (i, rest) :=
  decodeToken_encode h.space h.wf fun n hmark => absurd hmark (h.ne_mark n)

/-- Whatever the size, the tokens interpreted are the first ones of the stream. -/
theorem interpretedTokens_isPrefix (fuel room : Nat) {toks : List Instr} (h : ∀ i ∈ toks, i.Canonical) :
    interpretedTokens fuel room (toks.flatMap encode) <+: toks := by
  induction fuel generalizing room toks with
  | zero => exact List.nil_prefix
  | succ fuel ih =>
    unfold interpretedTokens
    split
    · exact List.nil_prefix
    · cases toks with
      | nil => exact List.nil_prefix
      | cons i toks =>
        obtain ⟨hi, htoks⟩ := List.forall_mem_cons.mp h
        rw [List.flatMap_cons, decodeToken_canonical hi]
        exact (List.prefix_cons_inj i).mpr (ih _ htoks)

/-- With room for the whole output every token is interpreted: each gives a byte, so room is left until the last one. -/
theorem interpretedTokens_all {fuel room : Nat} {toks : List Instr} (h : ∀ i ∈ toks, i.Canonical)
    (hfuel : toks.length ≤ fuel) (hroom : (toks.flatMap outputOf).length ≤ room) :
    interpretedTokens fuel room (toks.flatMap encode) = toks := by
  induction toks generalizing fuel room with
  | nil => exact List.prefix_nil.mp (interpretedTokens_isPrefix fuel room h)
  | cons i toks ih =>
    obtain ⟨fuel, rfl⟩ : ∃ k, fuel = k + 1 := Nat.exists_eq_add_of_le' (Nat.le_trans (Nat.le_add_left 1 _) hfuel)
    obtain ⟨hi, htoks⟩ := List.forall_mem_cons.mp h
    have hone := (canonical_sizes hi).1
    rw [List.flatMap_cons, List.length_append] at hroom
    rw [List.flatMap_cons, interpretedTokens, if_neg (by omega), decodeToken_canonical hi]
    exact congrArg (i :: ·) (ih htoks (Nat.le_of_succ_le_succ hfuel) (by omega))

theorem length_le_flatMap_encode (toks : List Instr) : toks.length ≤ (toks.flatMap encode).length := by
  induction toks with
  | nil => exact Nat.le_refl 0
  | cons i toks ih =>
    have hone : 1 ≤ (encode i).length := by cases i <;> exact Nat.le_add_left 1 _
    rw [List.flatMap_cons, List.length_append, List.length_cons]
    omega

theorem length_le_dilen_of_stream {u : State} {toks : List Instr}
    (hinput : u.bytes .din u.dilen.toNat = toks.flatMap encode) : toks.length ≤ u.dilen.toNat := by
  rw [← State.bytes_length u .din u.dilen.toNat, hinput]
  exact length_le_flatMap_encode toks

section Stream

variable {u : State} {toks : List Instr} (hcanonical : ∀ i ∈ toks, i.Canonical)
  (hinput : u.bytes .din u.dilen.toNat = toks.flatMap encode)
include hcanonical hinput

theorem decodedTokens_isPrefix_of_stream : u.decodedTokens <+: toks := by
  rw [State.decodedTokens, hinput]
  exact interpretedTokens_isPrefix _ _ hcanonical

theorem decodedTokens_of_stream (hroom : (toks.flatMap outputOf).length ≤ u.dsize.toNat) : u.decodedTokens = toks := by
  rw [State.decodedTokens, hinput]
  exact interpretedTokens_all hcanonical (length_le_dilen_of_stream hinput) hroom

/-- Cut to `DSIZE`, the output is that of the whole stream. -/
theorem decodedOutput_take_of_stream :
    u.decodedOutput.take u.dsize.toNat = (toks.flatMap outputOf).take u.dsize.toNat := by
  have hall := interpretedTokens_all hcanonical (length_le_dilen_of_stream hinput)
    (Nat.le_max_right u.dsize.toNat _)
  rw [State.decodedOutput, State.decodedTokens, hinput]
  conv_rhs => rw [← hall]
  exact interpretedTokens_output_take _ (Nat.le_max_left _ _) _

end Stream

/-- A copy of the encoder's output in `DIN` is the stream of its tokens. -/
theorem bytes_din_of_copy {s t u : State} (hfits : ¬ s.encodeTooLong) (hexec : exec .rleEnc s = .next t)
    (hdilen : u.dilen.toNat = t.eolen.toNat) (hcopy : ∀ a, a < t.eolen.toNat → u.readByte .din a = t.readByte .eout a) :
    u.bytes .din u.dilen.toNat = s.encoderTokens.flatMap encode := by
  have hsame : u.bytes .din t.eolen.toNat = t.bytes .eout t.eolen.toNat :=
    List.map_congr_left fun a ha => hcopy a (List.mem_range.mp ha)
  rw [hdilen, hsame, (execRleEnc_stream hfits hexec).2, State.encodedStream_eq_tokens]

theorem State.bytes_getD (s : State) (sp : ByteSpace) (n a : Nat) (d : Byte) :
    (s.bytes sp n).getD a d = if a < n then s.readByte sp a else d := by
  by_cases ha : a < n <;> simp [State.bytes, ha]

end Sys2Proof.Machine

namespace Sys2Proof.Machine

/-- Settles O22: the length check alone decides between the refusal and the run to the end. -/
theorem rleEncIsRefusedOnlyForLength : Obligations.RleEncIsRefusedOnlyForLength := by
  intro s
  by_cases hlong : s.encodeTooLong
  · exact ⟨_, execRleEnc_refused hlong, fun _ => s.raise_refusedWith .badLength, fun hfits => absurd hlong hfits,
      fun ⟨hein, heout⟩ => absurd hlong (not_encodeTooLong_of_largest hein heout)⟩
  · exact ⟨_, execRleEnc_runs hlong, fun h => absurd h hlong, fun _ => rfl, fun _ => rfl⟩

/-- Settles O23: extending from one byte keeps to equal bytes and to its bounds, and stops at none of the longer runs. -/
theorem runLengthIsLargest : Obligations.RunLengthIsLargest := by
  intro byteOf len p hp
  obtain ⟨hlow, hend⟩ := extendRun_bounds byteOf len p (byteOf p) (Config.runMax - 1) 1 hp
  refine ⟨hlow, runLength_le _ _ _, hend, extendRun_bytes _ fun j hj => ?_, fun n _ hmax hlen hbytes =>
    le_extendRun hlen hbytes hmax⟩
  obtain rfl := Nat.lt_one_iff.mp hj
  rfl

/-- Settles O24: the token is a run or a literal as R104 says, and its one or two bytes are what is stored. -/
theorem encStepEmitsOneToken : Obligations.EncStepEmitsOneToken := by
  intro s v n ha hroom hv hn
  have hcount : n ≤ 63 := hn ▸ runLength_le _ _ _
  have htoken : s.encoderToken = runToken n v := by rw [hn, hv, State.encoderToken]
  have heolen := encStep_eolen_toNat hroom
  have hread := encStep_readByte_eout s
  refine ⟨hn ▸ encStep_eipos_toNat ha, fun hrun => ?_, fun ⟨hone, hlow⟩ => ?_, rfl, rfl, rfl, encStep_frame s⟩
  · have hbytes : encode s.encoderToken = [0xC0#8 ||| BitVec.ofNat 8 n, v] := by
      rw [htoken, runToken_eq_run hrun, encode, runControl_ofNat (by omega)]
    simp only [hbytes, List.length_cons, List.length_nil, Nat.zero_add] at heolen hread
    refine ⟨?_, ?_, heolen, fun a hout => ?_⟩
    · simp [hread]
    · simp [hread]
    · rw [hread, if_neg (by omega)]
  · have hbytes : encode s.encoderToken = [v] := by
      rw [htoken, runToken_eq_lit hone.le hlow, encode]
    simp only [hbytes, List.length_cons, List.length_nil, Nat.zero_add] at heolen hread
    refine ⟨?_, heolen, fun a hne => ?_⟩
    · simp [hread]
    · rw [hread, if_neg (by omega)]

/-- Settles O25: what the loop leaves after the emitted tokens, from cleared cursors; their outputs are the whole input. -/
theorem rleEncEndState : Obligations.RleEncEndState := by
  intro s hfits
  have hdone := encodeLoop_start_emitted s
  have heipos : (encodeLoop s.eilen.toNat (encodeStart s)).eipos.toNat = s.eilen.toNat := by
    rw [hdone.eipos, s.encoderTokens_output, State.bytes_length]
    exact Nat.zero_add _
  refine ⟨_, execRleEnc_runs hfits, BitVec.eq_of_toNat_eq heipos, hdone.eolen.trans (Nat.zero_add _), fun a ha => ?_,
    fun a ha => ?_, rfl, State.complete_ended _, State.complete_statusKept (encodeLoop_status _ _), encodeLoop_pal _ _,
    encodeLoop_complete_frame _ s⟩
  · rw [encodeLoop_complete_readByte_eout, if_pos ha]
  · rw [encodeLoop_complete_readByte_eout, if_neg (Nat.not_lt.mpr ha)]

/-- Settles O26: the sizes of a stream of canonical tokens, whose output is the input. -/
theorem encoderOutputSize : Obligations.EncoderOutputSize := by
  intro s t hfits hexec
  have hsizes := canonical_stream_sizes s.encoderTokens_canonical
  rwa [s.encoderTokens_output, State.bytes_length, ← s.encodedStream_eq_tokens, ← (execRleEnc_stream hfits hexec).1] at hsizes

/-- Settles O27: the tokens emitted are the sequence. -/
theorem encoderOutputIsCanonical : Obligations.EncoderOutputIsCanonical := by
  intro s t hfits hexec
  refine ⟨s.encoderTokens, (execRleEnc_stream hfits hexec).2.symm, s.encoderTokens_output, s.encoderTokens_canonical,
    fun k i j hi hj => ?_⟩
  have hchain := List.isChain_iff_getElem.mp (emittedTokens_isChain s.eilen.toNat (s.bytes .ein s.eilen.toNat))
  obtain ⟨_, rfl⟩ := List.getElem?_eq_some_iff.mp hi
  obtain ⟨hlt, rfl⟩ := List.getElem?_eq_some_iff.mp hj
  exact hchain k hlt

/-- Settles O28: an input of equal bytes is `k` copies of one, whose tokens are the expansion of `REP k, v`. -/
theorem equalBytesEncodeAsRep : Obligations.EqualBytesEncodeAsRep := by
  intro s t v hfits _ hbytes hexec
  have hraw : s.bytes .ein s.eilen.toNat = List.replicate s.eilen.toNat v :=
    List.eq_replicate_iff.mpr ⟨State.bytes_length _ _ _, by simpa [State.bytes] using hbytes⟩
  rw [(execRleEnc_stream hfits hexec).2, State.encodedStream, hraw, emittedTokens_replicate (Nat.le_refl _)]

/-- Settles O30: `DIN` holds a stream of canonical tokens, so the output cut to `DSIZE` is that of the whole stream, the raw
bytes, and no interpreted token is a `RUN0` or a `MARK`. -/
theorem roundTripWithAnotherSize : Obligations.RoundTripWithAnotherSize := by
  intro s t u hfits hexec hfits' hdilen hcopy
  have hinput := bytes_din_of_copy hfits hexec hdilen hcopy
  have hcanonical : ∀ i ∈ u.decodedTokens, i.Canonical := fun i hi =>
    s.encoderTokens_canonical i ((decodedTokens_isPrefix_of_stream s.encoderTokens_canonical hinput).mem hi)
  have houtput := decodedOutput_take_of_stream s.encoderTokens_canonical hinput
  rw [s.encoderTokens_output] at houtput
  have hlen := congrArg List.length houtput
  simp only [List.length_take, State.bytes_length] at hlen
  obtain ⟨w, hexec', hdout, -, hdopos, -, htrunc, -, hzrun, hdangle, -⟩ := rleDecEndState u hfits'
  refine ⟨w, hexec', fun a ha => ?_, ?_, ?_, ?_, ?_⟩
  · rw [hdout a ha, houtput, ← State.bytes_getD]
    simp only [List.getD_eq_getElem?_getD, List.getElem?_take_of_lt ha]
  · rw [hdopos, List.length_take, hlen]
  · rw [htrunc, decide_eq_decide]
    omega
  · rw [Bool.eq_false_iff, Ne, hzrun]
    exact fun ⟨v, hv⟩ => (hcanonical _ hv).ne_run0 v rfl
  · rw [Bool.eq_false_iff, Ne, hdangle]
    exact fun ⟨n, hn⟩ => (hcanonical _ hn).ne_mark n rfl

/-- Settles O29: with the raw length as `DSIZE` every token of the stream is interpreted and its whole output fits, so that O30's
end state has no flag set and the input used up. -/
theorem roundTrip : Obligations.RoundTrip := by
  intro s t u hfits hexec hfits' hdilen hdsize hcopy
  have hinput := bytes_din_of_copy hfits hexec hdilen hcopy
  have htokens : u.decodedTokens = s.encoderTokens :=
    decodedTokens_of_stream s.encoderTokens_canonical hinput (by rw [s.encoderTokens_output, State.bytes_length, hdsize])
  have houtput : u.decodedOutput.length = u.dsize.toNat := by
    rw [State.decodedOutput, htokens, s.encoderTokens_output, State.bytes_length, hdsize]
  have hlength : (u.decodedTokens.map Instr.length).sum = u.dilen.toNat := by
    rw [← State.bytes_length u .din u.dilen.toNat, hinput, htokens, List.length_flatMap]
    simp only [encode_length]
  obtain ⟨w, hexec', hbytes, hdopos, htrunc, hzrun, hdangle⟩ := roundTripWithAnotherSize s t u hfits hexec hfits' hdilen hcopy
  obtain ⟨_, hend, -, -, -, hdipos, -, hclip, -, -, hreserved, hresult, -⟩ := rleDecEndState u hfits'
  obtain rfl := Host.Outcome.next.inj (hend.symm.trans hexec')
  rw [hdsize] at hbytes hdopos htrunc hclip houtput
  refine ⟨_, hexec', fun a ha => ?_, BitVec.eq_of_toNat_eq (hdopos.trans (Nat.min_self _)),
    BitVec.eq_of_toNat_eq (hdipos.trans hlength), flags_eq_of_bits hreserved (by decide) ?_ ?_ hzrun hdangle, hresult⟩
  · rw [hbytes a ha, if_pos ha]
  · exact htrunc.trans (decide_eq_false (Nat.lt_irrefl _))
  · exact hclip.trans (decide_eq_false (by rw [houtput]; exact Nat.lt_irrefl _))

end Sys2Proof.Machine

/-! # Proofs, palette (42_palette.md): the refusal and the load of `PAL.LOAD`, and that the quantizer reads the pixel and the
candidates 1 to 255 alone -/

namespace Sys2Proof.Machine

/-! ### `PAL.LOAD` -/

theorem execPalLoad_refused {s : State} (h : s.plen.toNat ≠ 768) : exec .palLoad s = .next (s.raise .sizeMismatch) :=
  congrArg Host.Outcome.next (if_pos h)

/-- What `PAL.LOAD` completes from: the blob is in the palette file and `PALV` is set (R117). -/
def paletteLoaded (s : State) : State := { s with pal := s.blobPalette, status := statusPaletteValid s.status }

theorem execPalLoad_loads {s : State} (h : s.plen.toNat = 768) : exec .palLoad s = .next (paletteLoaded s).complete :=
  congrArg Host.Outcome.next (if_neg (not_not_intro h))

theorem State.blobPalette_entry (s : State) {i : Nat} (hi : i < 256) : s.blobPalette.entry i = s.blobEntry i := by
  simp [Palette.entry, State.blobPalette, Vector.getD, hi]

@[simp] theorem paletteLoaded_palv (s : State) : (paletteLoaded s).palv = true := by
  simp only [State.palv, paletteLoaded, statusPaletteValid_getLsbD, if_true]

theorem paletteLoaded_statusKept (s : State) : StatusKept s (paletteLoaded s) [2] := by
  intro i hi
  rw [List.mem_singleton] at hi
  rw [paletteLoaded, statusPaletteValid_getLsbD, if_neg hi]

/-- The end of a command changes `BUSY` and `DONE` on top of what the command changed. -/
theorem StatusKept.complete {s t : State} {bits : List Nat} (h : StatusKept s t bits) :
    StatusKept s t.complete (0 :: 1 :: bits) := by
  intro i hi
  simp only [List.mem_cons, not_or] at hi
  obtain ⟨hbusy, hdone, hbits⟩ := hi
  have hend : t.complete.status.getLsbD i = t.status.getLsbD i :=
    State.complete_statusKept rfl i (by simp only [List.mem_cons, hbusy, hdone, List.not_mem_nil, or_self, not_false_eq_true])
  exact hend.trans (h i hbits)

theorem paletteLoaded_complete_frame (s : State) : Frame s (paletteLoaded s).complete [0x01, 0x02] [] :=
  .of_cells [(0x01, _), (0x02, _)] rfl (fun sp _ => by cases sp <;> rfl) rfl rfl rfl rfl rfl rfl

/-- Settles O31: a length other than 768 is refused, and a refusal keeps the palette and `PALV`. -/
theorem palLoadRefusesOtherSizes : Obligations.PalLoadRefusesOtherSizes := by
  intro s hsize
  exact ⟨_, execPalLoad_refused hsize, s.raise_refusedWith .sizeMismatch, s.raise_pal _, s.raise_palv _⟩

/-- Settles O32: the length passes the check, so the command ends in the loaded state, whose entries are the blob's. -/
theorem palLoadLoadsTheTriples : Obligations.PalLoadLoadsTheTriples := by
  intro s hsize
  exact ⟨_, execPalLoad_loads hsize, fun _ hi => s.blobPalette_entry hi,
    (State.complete_palv _).trans (paletteLoaded_palv s), rfl, State.complete_ended _,
    (paletteLoaded_statusKept s).complete, paletteLoaded_complete_frame s⟩

/-! ### What the quantizer reads -/

/-- The scan reads the distances of the candidates left in its list alone. -/
theorem scan_congr {d e : Nat → Nat} {candidates : List Nat} (h : ∀ i ∈ candidates, d i = e i) (best : Nat × Nat) :
    scan d candidates best = scan e candidates best := by
  induction candidates generalizing best with
  | nil => rfl
  | cons i rest ih =>
    rw [scan, scan, h i List.mem_cons_self]
    exact ih (fun j hj => h j (List.mem_cons_of_mem i hj)) _

theorem mem_laterCandidates {i : Nat} : i ∈ laterCandidates ↔ 2 ≤ i ∧ i ≤ 255 := by
  simp only [laterCandidates, Config.firstCandidate, Config.palEntries, List.mem_range'_1]
  omega

/-- The search reads the distances of the candidates 1 to 255 alone, never that of entry 0 (R119). -/
theorem nearestIndex_congr {d e : Nat → Nat} (h : ∀ i, 1 ≤ i → i ≤ 255 → d i = e i) : nearestIndex d = nearestIndex e := by
  have hfirst : d Config.firstCandidate = e Config.firstCandidate := h 1 (by decide) (by decide)
  have hlater : ∀ i ∈ laterCandidates, d i = e i := fun i hi => by
    obtain ⟨hlow, hhigh⟩ := mem_laterCandidates.mp hi
    exact h i (by omega) hhigh
  rw [nearestIndex, nearestIndex, hfirst, scan_congr hlater]

theorem nearest_congr (r g b : Byte) {pal pal' : Palette} (h : ∀ i, 1 ≤ i → i ≤ 255 → pal.entry i = pal'.entry i) :
    nearest r g b pal = nearest r g b pal' :=
  congrArg (BitVec.ofNat 8) (nearestIndex_congr fun i hlow hhigh => congrArg (dist r g b) (h i hlow hhigh))

theorem pixelIndex_congr (r g b a : Byte) {pal pal' : Palette} (h : ∀ i, 1 ≤ i → i ≤ 255 → pal.entry i = pal'.entry i) :
    pixelIndex r g b a pal = pixelIndex r g b a pal' := by
  rw [pixelIndex, pixelIndex, nearest_congr r g b h]

theorem execCqNear_finds {s : State} (h : s.palv = true) :
    exec .cqNear s = .next (State.complete { s with qidx := nearest s.qr s.qg s.qb s.pal }) :=
  congrArg Host.Outcome.next (if_neg (ne_false_of_eq_true h))

theorem execCqPix_finds {s : State} (h : s.palv = true) :
    exec .cqPix s = .next (State.complete { s with qidx := pixelIndex s.qr s.qg s.qb s.qa s.pal }) :=
  congrArg Host.Outcome.next (if_neg (ne_false_of_eq_true h))

theorem execCqNear_qidx {s t : State} (h : s.palv = true) (hexec : exec .cqNear s = .next t) :
    t.qidx = nearest s.qr s.qg s.qb s.pal := by
  obtain rfl := Host.Outcome.next.inj ((execCqNear_finds h).symm.trans hexec)
  rfl

theorem execCqPix_qidx {s t : State} (h : s.palv = true) (hexec : exec .cqPix s = .next t) :
    t.qidx = pixelIndex s.qr s.qg s.qb s.qa s.pal := by
  obtain rfl := Host.Outcome.next.inj ((execCqPix_finds h).symm.trans hexec)
  rfl

/-- Settles O37: each command's index is a function of the pixel and the palette that no distance but those of the candidates
enters. -/
theorem quantizerReadsPixelAndCandidatesAlone : Obligations.QuantizerReadsPixelAndCandidatesAlone := by
  intro s₁ s₂ t₁ t₂ hvalid₁ hvalid₂ hr hg hb hpal
  refine ⟨fun hexec₁ hexec₂ => ?_, fun ha hexec₁ hexec₂ => ?_⟩
  · rw [execCqNear_qidx hvalid₁ hexec₁, execCqNear_qidx hvalid₂ hexec₂, hr, hg, hb, nearest_congr _ _ _ hpal]
  · rw [execCqPix_qidx hvalid₁ hexec₁, execCqPix_qidx hvalid₂ hexec₂, hr, hg, hb, ha, pixelIndex_congr _ _ _ _ hpal]

end Sys2Proof.Machine

/-! # Proofs, quantizer (43_quantizer.md): the distance, the search as the closest pair of a list of candidates, the comparator
trees, and the commands `CQ.NEAR` and `CQ.PIX` -/

namespace Sys2Proof.Machine

/-! ### The distance (R127, R136) -/

theorem channelDiff_sq_le (x y : Byte) : channelDiff x y ^ 2 ≤ 65025 := by
  have hx := x.isLt
  have hy := y.isLt
  have hlow : -255 ≤ channelDiff x y := by rw [channelDiff]; omega
  have hhigh : channelDiff x y ≤ 255 := by rw [channelDiff]; omega
  exact sq_le_sq' hlow hhigh

theorem channelDiff_eq_zero_iff {x y : Byte} : channelDiff x y = 0 ↔ y = x := by
  rw [channelDiff, sub_eq_zero, Nat.cast_inj, BitVec.toNat_inj, eq_comm]

/-- The conversion to `Nat` loses nothing, because a sum of squares is not negative. -/
theorem dist_cast (r g b : Byte) (p : Rgb) :
    (dist r g b p : Int) = channelDiff r p.r ^ 2 + channelDiff g p.g ^ 2 + channelDiff b p.b ^ 2 := by
  simp only [sq]
  exact Int.toNat_of_nonneg (add_nonneg (add_nonneg (mul_self_nonneg _) (mul_self_nonneg _)) (mul_self_nonneg _))

theorem dist_le (r g b : Byte) (p : Rgb) : dist r g b p ≤ 195075 := by
  have hcast := dist_cast r g b p
  have hr := channelDiff_sq_le r p.r
  have hg := channelDiff_sq_le g p.g
  have hb := channelDiff_sq_le b p.b
  omega

theorem dist_eq_zero_iff (r g b : Byte) (p : Rgb) : dist r g b p = 0 ↔ p = ⟨r, g, b⟩ := by
  have hr := sq_nonneg (channelDiff r p.r)
  have hg := sq_nonneg (channelDiff g p.g)
  have hb := sq_nonneg (channelDiff b p.b)
  rw [← Int.natCast_eq_zero, dist_cast, add_eq_zero_iff_of_nonneg (add_nonneg hr hg) hb, add_eq_zero_iff_of_nonneg hr hg]
  obtain ⟨pr, pg, pb⟩ := p
  simp only [sq_eq_zero_iff, channelDiff_eq_zero_iff, and_assoc, Rgb.mk.injEq]

/-- Settles O34: the distance as an integer is the sum of the three squares, each of which is 0 to 65025. -/
theorem distanceIsExactSumOfSquares : Obligations.DistanceIsExactSumOfSquares := by
  intro r g b p
  exact ⟨dist_cast r g b p, dist_le r g b p, dist_eq_zero_iff r g b p⟩

/-! ### The closest pair of a list of candidates -/

/-- `p` is the pair (index, distance) of the candidate that comes first in the order by distance and then by index (R129, R134). -/
structure IsClosest (d : Nat → Nat) (candidates : List Nat) (p : Nat × Nat) : Prop where
  candidate : p.1 ∈ candidates
  distance : p.2 = d p.1
  least : ∀ j ∈ candidates, d p.1 < d j ∨ (d p.1 = d j ∧ p.1 ≤ j)

theorem IsClosest.unique {d : Nat → Nat} {candidates : List Nat} {p q : Nat × Nat}
    (hp : IsClosest d candidates p) (hq : IsClosest d candidates q) : p = q := by
  have hpq := hp.least q.1 hq.candidate
  have hqp := hq.least p.1 hp.candidate
  have hindex : p.1 = q.1 := by omega
  exact Prod.ext hindex (by rw [hp.distance, hq.distance, hindex])

theorem IsClosest.of_index {d : Nat → Nat} {candidates : List Nat} {p : Nat × Nat} (h : IsClosest d candidates p) :
    IsClosest d candidates (p.1, d p.1) :=
  ⟨h.candidate, rfl, h.least⟩

theorem IsClosest.perm {d : Nat → Nat} {l m : List Nat} {p : Nat × Nat} (h : IsClosest d l p) (hperm : l.Perm m) :
    IsClosest d m p where
  candidate := hperm.mem_iff.mp h.candidate
  distance := h.distance
  least := fun j hj => h.least j (hperm.mem_iff.mpr hj)

theorem isClosest_singleton (d : Nat → Nat) (i : Nat) : IsClosest d [i] (i, d i) where
  candidate := List.mem_singleton_self i
  distance := rfl
  least := fun _ hj => .inr ⟨congrArg d (List.mem_singleton.mp hj).symm, (List.mem_singleton.mp hj).ge⟩

/-- A comparator of the closest pairs of two lists gives the closest pair of both. -/
theorem IsClosest.closer_append {d : Nat → Nat} {l m : List Nat} {p q : Nat × Nat} (hp : IsClosest d l p)
    (hq : IsClosest d m q) : IsClosest d (l ++ m) (closer p q) := by
  have hdp := hp.distance
  have hdq := hq.distance
  unfold closer
  split
  case isTrue hle =>
    refine ⟨List.mem_append_left m hp.candidate, hdp, fun j hj => ?_⟩
    rcases List.mem_append.mp hj with hj | hj
    · exact hp.least j hj
    · have hqj := hq.least j hj
      omega
  case isFalse hgt =>
    refine ⟨List.mem_append_right l hq.candidate, hdq, fun j hj => ?_⟩
    rcases List.mem_append.mp hj with hj | hj
    · have hpj := hp.least j hj
      omega
    · exact hq.least j hj

/-- The root of a comparator tree holds the closest pair of its leaves, whatever its shape (R134). -/
theorem CompareTree.reduce_isClosest (d : Nat → Nat) (tree : CompareTree) : IsClosest d tree.leaves (tree.reduce d) := by
  induction tree with
  | leaf i => exact isClosest_singleton d i
  | node l r hl hr => exact hl.closer_append hr

/-! ### The ascending scan (R128) -/

/-- One step of the scan is a comparator: the index of the new pair is the larger one, so of equal distances the old pair stays. -/
theorem scan_step_eq_closer (d : Nat → Nat) {best : Nat × Nat} {i : Nat} (h : best.1 < i) :
    (if d i < best.2 then (i, d i) else best) = closer best (i, d i) := by
  rw [closer]
  split_ifs with hnew hkeep hkeep
  · omega
  · rfl
  · rfl
  · omega

/-- The scan over an ascending list, begun with the closest pair of the candidates before it, ends with the closest of all. -/
theorem scan_isClosest {d : Nat → Nat} {seen rest : List Nat} {best : Nat × Nat} (hbest : IsClosest d seen best)
    (hascending : (seen ++ rest).Pairwise (· < ·)) : IsClosest d (seen ++ rest) (scan d rest best) := by
  induction rest generalizing seen best with
  | nil => rwa [List.append_nil]
  | cons i rest ih =>
    have hlater : best.1 < i := (List.pairwise_append.mp hascending).2.2 best.1 hbest.candidate i List.mem_cons_self
    rw [scan, scan_step_eq_closer d hlater]
    rw [List.append_cons] at hascending ⊢
    exact ih (hbest.closer_append (isClosest_singleton d i)) hascending

theorem nearestIndex_isClosest (d : Nat → Nat) : IsClosest d (List.range' 1 255) (nearestIndex d, d (nearestIndex d)) := by
  have hscan : IsClosest d (List.range' 1 255) (scan d laterCandidates (Config.firstCandidate, d Config.firstCandidate)) :=
    scan_isClosest (isClosest_singleton d Config.firstCandidate) (List.pairwise_lt_range' (s := 1) (n := 255))
  rw [nearestIndex]
  exact hscan.of_index

/-- Settles O38: the root of the tree and the scan both give the closest pair of the candidates, and there is only one. -/
theorem comparatorTreeEqualsScan : Obligations.ComparatorTreeEqualsScan := by
  intro d tree hleaves
  exact ((tree.reduce_isClosest d).perm hleaves).unique (nearestIndex_isClosest d)

theorem nearestIndex_isNearest (d : Nat → Nat) : IsNearest d (nearestIndex d) := by
  obtain ⟨hcandidate, -, hleast⟩ := nearestIndex_isClosest d
  simp only [List.mem_range'_1] at hcandidate hleast
  obtain ⟨hlow, hhigh⟩ := hcandidate
  have horder : ∀ j, 1 ≤ j → j ≤ 255 → d (nearestIndex d) < d j ∨ (d (nearestIndex d) = d j ∧ nearestIndex d ≤ j) :=
    fun j hj hj' => hleast j ⟨hj, by omega⟩
  refine ⟨hlow, by omega, fun j hj hj' => ?_, fun j hj hj' => ?_⟩
  · have hj := horder j hj hj'
    omega
  · have hj := horder j hj (by omega)
    omega

/-- The index fits `QIDX`, so what the search finds is what the register holds. -/
theorem nearest_isNearest (s : State) : IsNearest s.candidateDistance (nearest s.qr s.qg s.qb s.pal).toNat := by
  have hnearest := nearestIndex_isNearest s.candidateDistance
  have hfits : nearestIndex s.candidateDistance < 2 ^ 8 := Nat.lt_succ_of_le hnearest.high
  have hindex : (nearest s.qr s.qg s.qb s.pal).toNat = nearestIndex s.candidateDistance :=
    (BitVec.toNat_ofNat _ _).trans (Nat.mod_eq_of_lt hfits)
  rwa [hindex]

/-! ### `CQ.NEAR` and `CQ.PIX` -/

theorem execCqNear_refused {s : State} (h : s.palv = false) : exec .cqNear s = .next (s.raise .paletteNotLoaded) :=
  congrArg Host.Outcome.next (if_pos h)

theorem execCqPix_refused {s : State} (h : s.palv = false) : exec .cqPix s = .next (s.raise .paletteNotLoaded) :=
  congrArg Host.Outcome.next (if_pos h)

theorem pixelIndex_transparent (r g b : Byte) {a : Byte} (pal : Palette) (h : a.toNat ≤ 128) : pixelIndex r g b a pal = 0#8 :=
  if_pos h

theorem pixelIndex_opaque (r g b : Byte) {a : Byte} (pal : Palette) (h : 128 < a.toNat) :
    pixelIndex r g b a pal = nearest r g b pal :=
  if_neg (Nat.not_le_of_lt h)

theorem complete_qidx_frame (s : State) (v : Byte) : Frame s (State.complete { s with qidx := v }) [0x01, 0x02, 0x10] [] :=
  .of_cells [(0x01, _), (0x02, _), (0x10, _)] rfl (fun sp _ => by cases sp <;> rfl) rfl rfl rfl rfl rfl rfl

/-- Settles O33: without a palette both commands end in `State.raise`, which keeps `QIDX`. -/
theorem quantizerNeedsPalette : Obligations.QuantizerNeedsPalette := by
  intro s hinvalid
  exact ⟨⟨_, execCqNear_refused hinvalid, s.raise_refusedWith .paletteNotLoaded, s.raise_qidx _⟩,
    ⟨_, execCqPix_refused hinvalid, s.raise_refusedWith .paletteNotLoaded, s.raise_qidx _⟩⟩

/-- Settles O35: with a palette the command ends in the state whose `QIDX` is the index the scan found. -/
theorem cqNearFindsTheNearestCandidate : Obligations.CqNearFindsTheNearestCandidate := by
  intro s
  refine ⟨fun hinvalid => ⟨_, execCqNear_refused hinvalid, s.raise_refusedWith .paletteNotLoaded⟩, fun hvalid => ?_⟩
  exact ⟨_, execCqNear_finds hvalid, nearest_isNearest s, rfl, State.complete_ended _, State.complete_statusKept rfl, rfl,
    complete_qidx_frame s _⟩

/-- Settles O36: with a palette the command ends in the state whose `QIDX` is 0 or the index the scan found, as alpha says. -/
theorem cqPixAppliesTheAlphaThreshold : Obligations.CqPixAppliesTheAlphaThreshold := by
  intro s
  refine ⟨fun hinvalid => ⟨_, execCqPix_refused hinvalid, s.raise_refusedWith .paletteNotLoaded⟩, fun hvalid => ?_⟩
  refine ⟨_, execCqPix_finds hvalid, fun ha => ?_, fun ha => ?_, rfl, State.complete_ended _, State.complete_statusKept rfl, rfl,
    complete_qidx_frame s _⟩
  · exact pixelIndex_transparent s.qr s.qg s.qb s.pal ha
  · rw [State.complete_qidx, pixelIndex_opaque s.qr s.qg s.qb s.pal ha]
    exact nearest_isNearest s

end Sys2Proof.Machine

/-! # Proofs, system commands (44_system_commands.md): `CLRERR`, which completes with `ESTICKY` cleared, and the reserved codes,
which are refused -/

namespace Sys2Proof.Machine

/-! ### `CLRERR` -/

/-- What `CLRERR` completes from: `ESTICKY` is cleared (R145). -/
def errorCleared (s : State) : State := { s with status := statusErrorCleared s.status }

theorem execClrErr_clears (s : State) : exec .clrErr s = .next (errorCleared s).complete := rfl

@[simp] theorem errorCleared_esticky (s : State) : (errorCleared s).esticky = false := by
  simp only [State.esticky, errorCleared, statusErrorCleared_getLsbD, if_true]

theorem errorCleared_statusKept (s : State) : StatusKept s (errorCleared s) [3] := by
  intro i hi
  rw [List.mem_singleton] at hi
  rw [errorCleared, statusErrorCleared_getLsbD, if_neg hi]

theorem errorCleared_complete_frame (s : State) : Frame s (errorCleared s).complete [0x01, 0x02] [] :=
  .of_cells [(0x01, _), (0x02, _)] rfl (fun sp _ => by cases sp <;> rfl) rfl rfl rfl rfl rfl rfl

/-- Settles O39: the end of the command keeps the `ESTICKY` that `CLRERR` cleared, and changes `RESULT`, `BUSY` and `DONE` on top
of it. -/
theorem clrErrClearsStickyOnly : Obligations.ClrErrClearsStickyOnly := by
  intro s
  exact ⟨_, execClrErr_clears s, (State.complete_esticky _).trans (errorCleared_esticky s), rfl, State.complete_ended _,
    (errorCleared_statusKept s).complete, rfl, errorCleared_complete_frame s⟩

/-! ### The reserved codes -/

theorem execCmdReserved_refused (c : Byte) (s : State) : exec (.cmdReserved c) s = .next (s.raise .badCommand) := rfl

/-- Settles O40: whatever the code, the command ends in `State.raise`, which changes the four items of R186 alone. -/
theorem reservedCodeIsBadCommand : Obligations.ReservedCodeIsBadCommand := by
  intro s c
  exact ⟨_, execCmdReserved_refused c s, s.raise_refusedWith .badCommand, rfl⟩

end Sys2Proof.Machine

/-! # Proofs, the surrounding software (45_host_reference.md): the header `build` makes is the one `parse` reads, and a palette
block parses back to its palette -/

namespace Sys2Proof.Machine.HostReference

/-! ### The bytes of the header -/

theorem build_getElem? (l : HeaderLayout) (width height : Nat) {o : Nat} (ho : o < headerBytes) :
    (build l width height)[o]? = some (headerByte l width height o) := by
  simp [build, ho]

/-- What follows the header in a file does not change what is read inside it. -/
theorem build_append_getD (l : HeaderLayout) (width height : Nat) (rest : List Byte) {o : Nat} (ho : o < headerBytes)
    (d : Byte) : (build l width height ++ rest).getD o d = headerByte l width height o := by
  rw [List.getD_append _ _ _ _ (by simpa using ho), build_getD _ _ _ _ ho]

/-- A field that holds the low and the high byte of a number reads as its low 16 bits (R155). -/
theorem field16_toNat {bytes : List Byte} {o n : Nat} (low : bytes.getD o 0#8 = lowByte n)
    (high : bytes.getD (o + 1) 0#8 = highByte n) : (field16 bytes o).toNat = n % 65536 := by
  rw [field16, low, high, BitVec.toNat_append, ← Nat.shiftLeft_add_eq_or_of_lt (BitVec.isLt _), Nat.shiftLeft_eq, lowByte,
    highByte, BitVec.toNat_ofNat, BitVec.toNat_ofNat]
  omega

/-- The same of a field of the header `build` makes, with anything after the header. -/
theorem field16_build (l : HeaderLayout) (width height : Nat) (rest : List Byte) {o n : Nat} (ho : o + 1 < headerBytes)
    (low : headerByte l width height o = lowByte n) (high : headerByte l width height (o + 1) = highByte n) :
    (field16 (build l width height ++ rest) o).toNat = n % 65536 :=
  field16_toNat (by rw [build_append_getD _ _ _ _ (by omega), low]) (by rw [build_append_getD _ _ _ _ ho, high])

/-! ### Parsing what `build` makes (R156, R157) -/

/-- The header read from a file that begins with what `build` makes. -/
def builtHeader (l : HeaderLayout) (width height : Nat) (rest : List Byte) : Header :=
  let file := build l width height ++ rest
  ⟨field16 file 4, field16 file 6, field16 file 8, field16 file 10, field16 file 66⟩

theorem parse_build (l : HeaderLayout) (width height : Nat) (rest : List Byte) :
    parse (build l width height ++ rest) = .ok (builtHeader l width height rest) := by
  have marker : (build l width height ++ rest).getD 0 0x0A#8 = 0x0A#8 := build_append_getD l width height rest (by decide) _
  have whole : ¬ (build l width height ++ rest).length < headerBytes := by
    rw [List.length_append, build_length]
    omega
  rw [parse, if_neg (not_not_intro marker), if_neg whole, builtHeader]

theorem builtHeader_width (l : HeaderLayout) {width : Nat} (height : Nat) (rest : List Byte) (h1 : 1 ≤ width)
    (h2 : width ≤ 65536) : (builtHeader l width height rest).width = width := by
  have hmin : (field16 (build l width height ++ rest) 4).toNat = 0 := field16_build (n := 0) _ _ _ _ (by decide) rfl rfl
  have hmax : (field16 (build l width height ++ rest) 8).toNat = (width - 1) % 65536 :=
    field16_build _ _ _ _ (by decide) rfl rfl
  simp only [Header.width, builtHeader, hmin, hmax]
  omega

theorem builtHeader_height (l : HeaderLayout) (width : Nat) {height : Nat} (rest : List Byte) (h1 : 1 ≤ height)
    (h2 : height ≤ 65536) : (builtHeader l width height rest).height = height := by
  have hmin : (field16 (build l width height ++ rest) 6).toNat = 0 := field16_build (n := 0) _ _ _ _ (by decide) rfl rfl
  have hmax : (field16 (build l width height ++ rest) 10).toNat = (height - 1) % 65536 :=
    field16_build _ _ _ _ (by decide) rfl rfl
  simp only [Header.height, builtHeader, hmin, hmax]
  omega

/-- From a width of 65535 on, the even number above it no longer fits the field (log 24). -/
theorem builtHeader_bytesPerLine (l : HeaderLayout) {width : Nat} (height : Nat) (rest : List Byte) (h : width ≤ 65534) :
    (builtHeader l width height rest).bytesPerLine.toNat = bytesPerLine width := by
  have hfield : (field16 (build l width height ++ rest) 66).toNat = bytesPerLine width % 65536 :=
    field16_build _ _ _ _ (by decide) rfl rfl
  rw [builtHeader, hfield, Nat.mod_eq_of_lt]
  unfold bytesPerLine
  omega

theorem builtHeader_decodedSize (l : HeaderLayout) {width height : Nat} (rest : List Byte) (hw : width ≤ 65534)
    (h1 : 1 ≤ height) (h2 : height ≤ 65536) :
    (builtHeader l width height rest).decodedSize = height * bytesPerLine width := by
  rw [Header.decodedSize, builtHeader_height l width rest h1 h2, builtHeader_bytesPerLine l height rest hw, Int.toNat_natCast]

/-! ### The fields the document does not place (R158, log 25) -/

theorem headerByte_unplaced (l : HeaderLayout) (width height : Nat) {o : Nat} (ho : o ∉ placedOffsets) :
    headerByte l width height o = unplacedByte l width height o := by
  unfold headerByte
  split
  case h_15 => rfl
  all_goals exact absurd (by decide) ho

theorem HeaderLayout.Legal.not_placed {l : HeaderLayout} (hl : l.Legal) {o : Nat} (ho : o ∈ l.offsets) :
    o ∉ placedOffsets :=
  fun hp => (List.nodup_append.1 hl.1).2.2 o hp o ho rfl

/-- The bytes of the three fields lie at five different offsets. -/
theorem HeaderLayout.Legal.offsets_nodup {l : HeaderLayout} (hl : l.Legal) :
    [l.horizontalDpi, l.horizontalDpi + 1, l.verticalDpi, l.verticalDpi + 1, l.paletteInfo].Nodup :=
  (List.nodup_append.1 hl.1).2.1

section LegalLayout
variable {l : HeaderLayout} (hl : l.Legal) (width height : Nat)
include hl

/-- Each byte of the three fields is what R158 puts there: no earlier test of `unplacedByte` takes it. -/
theorem headerByte_unplacedFields :
    headerByte l width height l.horizontalDpi = lowByte width ∧
    headerByte l width height (l.horizontalDpi + 1) = highByte width ∧
    headerByte l width height l.verticalDpi = lowByte height ∧
    headerByte l width height (l.verticalDpi + 1) = highByte height ∧
    headerByte l width height l.paletteInfo = 1#8 := by
  have hne := hl.offsets_nodup
  simp only [List.nodup_cons, List.mem_cons, List.not_mem_nil, or_false, not_or] at hne
  have hbyte : ∀ o ∈ l.offsets, headerByte l width height o = unplacedByte l width height o :=
    fun o ho => headerByte_unplaced l width height (hl.not_placed ho)
  simp only [HeaderLayout.offsets, List.forall_mem_cons] at hbyte
  obtain ⟨bH, bH1, bV, bV1, bP, -⟩ := hbyte
  rw [bH, bH1, bV, bV1, bP]
  refine ⟨?_, ?_, ?_, ?_, ?_⟩ <;> grind [unplacedByte]

theorem horizontalDpi_eq (hw : width ≤ 65535) :
    (field16 (build l width height) l.horizontalDpi).toNat = width := by
  obtain ⟨low, high, -⟩ := headerByte_unplacedFields hl width height
  have hin : l.horizontalDpi + 1 < headerBytes := hl.2 _ (by simp [HeaderLayout.offsets])
  have hfield := field16_build l width height [] hin low high
  rw [List.append_nil] at hfield
  omega

theorem verticalDpi_eq (hh : height ≤ 65535) :
    (field16 (build l width height) l.verticalDpi).toNat = height := by
  obtain ⟨-, -, low, high, -⟩ := headerByte_unplacedFields hl width height
  have hin : l.verticalDpi + 1 < headerBytes := hl.2 _ (by simp [HeaderLayout.offsets])
  have hfield := field16_build l width height [] hin low high
  rw [List.append_nil] at hfield
  omega

theorem paletteInfo_eq : (build l width height)[l.paletteInfo]? = some 1#8 := by
  obtain ⟨-, -, -, -, flag⟩ := headerByte_unplacedFields hl width height
  rw [build_getElem? l width height (hl.2 _ (by simp [HeaderLayout.offsets])), flag]

end LegalLayout

/-- "all reserved bytes zero" (R158). -/
theorem build_reserved (l : HeaderLayout) (width height : Nat) {o : Nat} (ho : o < headerBytes) (hp : o ∉ placedOffsets)
    (hf : o ∉ l.offsets) : (build l width height)[o]? = some 0#8 := by
  simp only [HeaderLayout.offsets, List.mem_cons, List.not_mem_nil, or_false, not_or] at hf
  obtain ⟨hH, hH1, hV, hV1, hP⟩ := hf
  rw [build_getElem? l width height ho, headerByte_unplaced l width height hp, unplacedByte, if_neg hH, if_neg hH1, if_neg hV,
    if_neg hV1, if_neg hP]

/-- Settles O59: `parse` reads each field of `build` back from its own two bytes, and at a legal layout no field `build` sets
covers another. -/
theorem headerRoundTrip : Obligations.HeaderRoundTrip := by
  intro l width height rest hw1 hw2 hh1 hh2
  refine ⟨build_length l width height, ⟨builtHeader l width height rest, parse_build l width height rest,
    builtHeader_width l height rest hw1 hw2, builtHeader_height l width rest hh1 hh2, fun hw => ?_⟩, rfl, fun hl => ?_⟩
  · exact ⟨builtHeader_bytesPerLine l height rest hw, builtHeader_decodedSize l rest hw hh1 hh2⟩
  · exact ⟨horizontalDpi_eq hl width height, verticalDpi_eq hl width height, paletteInfo_eq hl width height,
      fun _ => build_reserved l width height⟩

/-! ### The palette block (R160 to R162) -/

theorem blobTriple_cons_succ (r g b : Byte) (blob : List Byte) (i : Nat) :
    blobTriple (r :: g :: b :: blob) (i + 1) = blobTriple blob i := rfl

/-- Entry `i` of a sequence of triples is the `i`-th triple, whatever follows them (R76). -/
theorem blobTriple_flatMap (triples : List Rgb) (after : List Byte) (i : Nat) (hi : i < triples.length) :
    blobTriple (triples.flatMap (fun p => [p.r, p.g, p.b]) ++ after) i = triples[i] := by
  induction triples generalizing i with
  | nil => exact absurd hi (Nat.not_lt_zero i)
  | cons p rest ih =>
    cases i with
    | zero => rfl
    | succ i => exact (blobTriple_cons_succ _ _ _ _ i).trans (ih i (Nat.lt_of_succ_lt_succ hi))

theorem blobOf_length (pal : Palette) : (blobOf pal).length = Config.palBytes := by
  calc (blobOf pal).length = (pal.toList.map fun _ => 3).sum := List.length_flatMap
    _ = Config.palEntries * 3 := by rw [List.map_const', List.sum_replicate, Vector.length_toList, smul_eq_mul]
    _ = Config.palBytes := rfl

theorem blobTriple_blobOf (pal : Palette) (after : List Byte) (i : Fin Config.palEntries) :
    blobTriple (blobOf pal ++ after) i = pal[i] := by
  rw [blobOf, blobTriple_flatMap pal.toList after i (by simp), Vector.getElem_toList]
  rfl

theorem parsePcxBlock_toPcxBlock (pal : Palette) (before after : List Byte) :
    parsePcxBlock (before ++ toPcxBlock pal ++ after) before.length = .ok pal := by
  have hdrop : (before ++ toPcxBlock pal ++ after).drop before.length = 0x0C#8 :: (blobOf pal ++ after) := by
    rw [List.append_assoc, List.drop_left, toPcxBlock, List.cons_append]
  have hlen : ¬ (blobOf pal ++ after).length < Config.palBytes := by
    rw [List.length_append, blobOf_length]
    omega
  have hpal : (Vector.ofFn fun i => blobTriple (blobOf pal ++ after) i.val) = pal := by
    ext1 i hi
    rw [Vector.getElem_ofFn]
    exact blobTriple_blobOf pal after ⟨i, hi⟩
  simp only [parsePcxBlock, hdrop, ne_eq, not_true_eq_false, if_false, if_neg hlen, hpal]

/-- Settles O60: the block's marker stands at the offset, and each triple behind it is read back as its palette entry. -/
theorem paletteBlockRoundTrip : Obligations.PaletteBlockRoundTrip :=
  fun pal before after =>
    ⟨by rw [toPcxBlock, List.length_cons, blobOf_length]; rfl, parsePcxBlock_toPcxBlock pal before after⟩

end Sys2Proof.Machine.HostReference

/-! # Proofs, exceptions (60_exceptions.md): the causes for which a command is refused, the result each command ends with, and
the moves of the host between commands -/

namespace Sys2Proof.Machine

/-! ### The causes of a refusal (R181 to R184) -/

/-- The command `i` has a cause to be refused with `r` in the state `s`. -/
inductive RefusalCause (s : State) : Instr → Result → Prop where
  | blobSize (h : s.plen.toNat ≠ 768) : RefusalCause s .palLoad .sizeMismatch
  | nearWithoutPalette (h : s.palv = false) : RefusalCause s .cqNear .paletteNotLoaded
  | pixelWithoutPalette (h : s.palv = false) : RefusalCause s .cqPix .paletteNotLoaded
  | decodeLength (h : s.decodeTooLong) : RefusalCause s .rleDec .badLength
  | encodeLength (h : s.encodeTooLong) : RefusalCause s .rleEnc .badLength
  | reservedCode (c : Byte) : RefusalCause s (.cmdReserved c) .badCommand

theorem exec_of_cause {s : State} {i : Instr} {r : Result} (h : RefusalCause s i r) : exec i s = .next (s.raise r) := by
  cases h with
  | blobSize h => exact execPalLoad_refused h
  | nearWithoutPalette h => exact execCqNear_refused h
  | pixelWithoutPalette h => exact execCqPix_refused h
  | decodeLength h => exact execRleDec_refused h
  | encodeLength h => exact execRleEnc_refused h
  | reservedCode c => exact execCmdReserved_refused c s

theorem RefusalCause.ne_ok {s : State} {i : Instr} {r : Result} (h : RefusalCause s i r) : r ≠ .ok := by
  cases h <;> exact nofun

theorem refusalCause_sizeMismatch_iff {s : State} {i : Instr} :
    RefusalCause s i .sizeMismatch ↔ i = .palLoad ∧ s.plen.toNat ≠ 768 :=
  ⟨fun | .blobSize h => ⟨rfl, h⟩, fun ⟨hi, h⟩ => hi ▸ .blobSize h⟩

theorem refusalCause_paletteNotLoaded_iff {s : State} {i : Instr} :
    RefusalCause s i .paletteNotLoaded ↔ (i = .cqNear ∨ i = .cqPix) ∧ s.palv = false := by
  constructor
  · intro hcause
    cases hcause with
    | nearWithoutPalette h => exact ⟨.inl rfl, h⟩
    | pixelWithoutPalette h => exact ⟨.inr rfl, h⟩
  · rintro ⟨rfl | rfl, h⟩
    · exact .nearWithoutPalette h
    · exact .pixelWithoutPalette h

theorem refusalCause_badLength_iff {s : State} {i : Instr} :
    RefusalCause s i .badLength ↔ (i = .rleDec ∧ s.decodeTooLong) ∨ (i = .rleEnc ∧ s.encodeTooLong) := by
  constructor
  · intro hcause
    cases hcause with
    | decodeLength h => exact .inl ⟨rfl, h⟩
    | encodeLength h => exact .inr ⟨rfl, h⟩
  · rintro (⟨rfl, h⟩ | ⟨rfl, h⟩)
    · exact .decodeLength h
    · exact .encodeLength h

theorem refusalCause_badCommand_iff {s : State} {i : Instr} :
    RefusalCause s i .badCommand ↔ ∃ c, i = .cmdReserved c :=
  ⟨fun | .reservedCode c => ⟨c, rfl⟩, fun ⟨c, hi⟩ => hi ▸ .reservedCode c⟩

/-! ### How a command ends -/

theorem State.esticky_of_status {s t : State} (h : t.status = s.status) : t.esticky = s.esticky :=
  congrArg (·.getLsbD 3) h

theorem paletteLoaded_esticky (s : State) : (paletteLoaded s).esticky = s.esticky :=
  paletteLoaded_statusKept s 3 (by decide)

/-- Everything a command can do: it is refused for a cause it has, or it completes from a state in which only `CLRERR` changed
`ESTICKY` (R186, R187). -/
theorem exec_command_cases {s t : State} {i : Instr} (hi : i.space = .command) (hexec : exec i s = .next t) :
    (∃ r, RefusalCause s i r ∧ t = s.raise r) ∨
    (∃ u : State, t = u.complete ∧ (i ≠ .clrErr → u.esticky = s.esticky) ∧ (i = .clrErr → u.esticky = false)) := by
  by_cases hcause : ∃ r, RefusalCause s i r
  · obtain ⟨r, hr⟩ := hcause
    exact .inl ⟨r, hr, Host.Outcome.next.inj (hexec.symm.trans (exec_of_cause hr))⟩
  have completes {u : State} (hu : exec i s = .next u.complete) : t = u.complete :=
    Host.Outcome.next.inj (hexec.symm.trans hu)
  right
  cases i with
  | lit | run | run0 | mark => cases hi
  | cmdReserved c => exact absurd ⟨_, .reservedCode c⟩ hcause
  | palLoad =>
    have hsize : s.plen.toNat = 768 := not_not.mp fun h => hcause ⟨_, .blobSize h⟩
    exact ⟨_, completes (execPalLoad_loads hsize), fun _ => paletteLoaded_esticky s, nofun⟩
  | rleDec =>
    have hfits : ¬ s.decodeTooLong := fun h => hcause ⟨_, .decodeLength h⟩
    exact ⟨_, completes (execRleDec_runs hfits),
      fun _ => State.esticky_of_status (decodeLoop_status _ (decodeStart s)), nofun⟩
  | rleEnc =>
    have hfits : ¬ s.encodeTooLong := fun h => hcause ⟨_, .encodeLength h⟩
    exact ⟨_, completes (execRleEnc_runs hfits),
      fun _ => State.esticky_of_status (encodeLoop_status _ (encodeStart s)), nofun⟩
  | cqNear =>
    have hvalid : s.palv = true := eq_true_of_ne_false fun h => hcause ⟨_, .nearWithoutPalette h⟩
    exact ⟨_, completes (execCqNear_finds hvalid), fun _ => State.esticky_of_status rfl, nofun⟩
  | cqPix =>
    have hvalid : s.palv = true := eq_true_of_ne_false fun h => hcause ⟨_, .pixelWithoutPalette h⟩
    exact ⟨_, completes (execCqPix_finds hvalid), fun _ => State.esticky_of_status rfl, nofun⟩
  | clrErr => exact ⟨_, completes (execClrErr_clears s), fun h => absurd rfl h, fun _ => errorCleared_esticky s⟩

/-- No two results share a code (R70). -/
theorem Result.code_injective : Function.Injective Result.code := by
  intro r r'
  cases r <;> cases r' <;> decide

theorem exec_command_ended {s t : State} {i : Instr} (hi : i.space = .command) (hexec : exec i s = .next t) :
    CommandEnded t := by
  obtain ⟨r, -, rfl⟩ | ⟨u, rfl, -⟩ := exec_command_cases hi hexec
  · exact (s.raise_refusedWith r).ended
  · exact u.complete_ended

/-- A command ends with the code of a refusal exactly when it has that refusal's cause (R180 to R185). -/
theorem exec_command_result_iff {s t : State} {i : Instr} {r : Result} (hi : i.space = .command) (hexec : exec i s = .next t)
    (hr : r ≠ .ok) : t.result = r.code ↔ RefusalCause s i r := by
  constructor
  · intro hresult
    obtain ⟨r', hcause, rfl⟩ | ⟨u, rfl, -⟩ := exec_command_cases hi hexec
    · rwa [← Result.code_injective hresult]
    · exact absurd (Result.code_injective hresult.symm) hr
  · intro hcause
    rw [Host.Outcome.next.inj (hexec.symm.trans (exec_of_cause hcause)), State.raise_result]

/-- No command ends with a code from 0x05 up (R70). -/
theorem exec_command_result_le_four {s t : State} {i : Instr} (hi : i.space = .command) (hexec : exec i s = .next t) :
    t.result.toNat ≤ 4 := by
  obtain ⟨r, -, rfl⟩ | ⟨u, rfl, -⟩ := exec_command_cases hi hexec
  · exact r.code_le_four
  · exact Result.ok.code_le_four

/-- Settles O41: a command whose result is not `OK` did not complete, so it has a cause and ends in `State.raise`. -/
theorem refusalChangesFourItems : Obligations.RefusalChangesFourItems := by
  intro s t i hi hexec hresult
  obtain ⟨r, hcause, rfl⟩ | ⟨u, rfl, -⟩ := exec_command_cases hi hexec
  · exact ⟨r, hcause.ne_ok, s.raise_refusedWith r⟩
  · exact absurd rfl hresult

/-- Settles O42: a refusal's code is not that of `OK`, so the command completes, which keeps the `ESTICKY` of the state it
completes from. -/
theorem okKeepsStickyError : Obligations.OkKeepsStickyError := by
  intro s t i hi hexec hresult
  obtain ⟨r, hcause, rfl⟩ | ⟨u, rfl, hkeeps, hclears⟩ := exec_command_cases hi hexec
  · exact absurd (Result.code_injective (a₂ := .ok) hresult) hcause.ne_ok
  · rw [State.complete_esticky]
    exact ⟨u.complete_ended, hkeeps, hclears⟩

/-- Settles O43: the result is the code of a refusal exactly when the command has that refusal's cause, and each cause is the one
its rule names. -/
theorem resultOfEachCommand : Obligations.ResultOfEachCommand := by
  intro s i hi
  obtain ⟨t, hexec⟩ := exec_completes i s
  have hresult {r : Result} (hr : r ≠ .ok) : t.result = r.code ↔ RefusalCause s i r := exec_command_result_iff hi hexec hr
  exact ⟨t, hexec, exec_command_ended hi hexec,
    (hresult (r := .badCommand) nofun).trans refusalCause_badCommand_iff,
    (hresult (r := .sizeMismatch) nofun).trans refusalCause_sizeMismatch_iff,
    (hresult (r := .paletteNotLoaded) nofun).trans refusalCause_paletteNotLoaded_iff,
    (hresult (r := .badLength) nofun).trans refusalCause_badLength_iff,
    exec_command_result_le_four hi hexec⟩

/-! ### The host's moves between commands (R193, R196) -/

theorem step_of_idle_nil {s : State} (hidle : s.busy = false) (hhost : s.host = []) : step s = .next s := by
  simp [step, nextMove, hidle, hhost]

/-- `rst` at once and a poll come before the test of `BUSY`, but on an idle block they are the same moves of the host. -/
theorem step_of_idle_cons {s : State} {m : HostMove} {rest : List HostMove} (hidle : s.busy = false)
    (hhost : s.host = m :: rest) : step s = hostMove m { s with host := rest } := by
  cases m with
  | rstAtOnce | pollStatus => simp only [step, nextMove, hhost, hostMove]
  | write | read | writeByte | readByte | rst => simp [step, nextMove, hidle, hhost]

theorem step_of_poll {s : State} {rest : List HostMove} (hhost : s.host = .pollStatus :: rest) :
    step s = .next (State.polled { s with host := rest }) := by
  simp only [step, nextMove, hhost]

/-- Settles O8: the hold, the host's move on an idle block, and the poll, which is written out by `State.polled`. -/
theorem stepPerformsTheNextHostMove : Obligations.StepPerformsTheNextHostMove := by
  intro s
  exact ⟨step_of_idle_nil, fun hidle _ _ => step_of_idle_cons hidle, fun _ => step_of_poll⟩

end Sys2Proof.Machine

/-! # Proofs, reset and hazards (70_reset_and_hazards.md): `rst` at any time, the one step of a command at whole-command grain,
and that the next step runs a placed table word -/

namespace Sys2Proof.Machine

/-! ### Reset (R200 to R203) -/

/-- `rst` at once comes before the test of `BUSY`; the `rst` that waits is the move of an idle block. -/
theorem step_of_rst {s : State} {rest : List HostMove}
    (h : s.host = .rstAtOnce :: rest ∨ (s.host = .rst :: rest ∧ s.busy = false)) :
    step s = .next (State.afterRst { s with host := rest }) := by
  obtain hhost | ⟨hhost, hidle⟩ := h
  · simp only [step, nextMove, hhost]
  · exact step_of_idle_cons hidle hhost

theorem State.afterRst_mem (s : State) (sp : ByteSpace) : s.afterRst.mem sp = [] := by cases sp <;> rfl

/-- After `rst` every byte is unwritten, so a read gives the free value of the new epoch (R202; log 6). -/
theorem State.afterRst_readByte (s : State) (sp : ByteSpace) (a : Nat) :
    s.afterRst.readByte sp a = Config.powerOnByte (s.epoch + 1) sp.index a := by
  rw [State.readByte, State.afterRst_mem]
  rfl

theorem State.afterRst_palv (s : State) : s.afterRst.palv = false := show (0#8 : Byte).getLsbD 2 = false by decide

/-- Settles O52: both forms of `rst` give `State.afterRst`, whose control fields are those of `State.reset`. -/
theorem rstMayBeRaisedAtAnyTime : Obligations.RstMayBeRaisedAtAnyTime := by
  intro s rest h
  exact ⟨_, step_of_rst h, rfl, rfl, rfl, rfl, rfl, rfl, rfl, rfl, rfl, rfl, rfl, rfl,
    State.afterRst_palv _, State.afterRst_readByte { s with host := rest }, rfl, rfl, rfl⟩

/-! ### A busy block at whole-command grain (R213, R216) -/

/-- Settles O56: the step is `exec` of the code in `CMD`, every instruction completes, and every command that completes has
ended. -/
theorem busyBlockEndsItsCommand : Obligations.BusyBlockEndsItsCommand := by
  intro s hbusy hstage hgrain hwait
  obtain ⟨t, hexec⟩ := exec_completes (decodeCommand s.cmd) s
  have hstep : step s = exec (decodeCommand s.cmd) s := stepRunsTheCommandInCmd s _ hbusy hstage hwait (.inl hgrain) rfl
  exact ⟨t, hstep.trans hexec, exec_command_ended (decodeCommand_space s.cmd) hexec⟩

/-! ### A table word placed for the next step (log 17) -/

theorem State.withCommand_waits (s : State) (c : Byte) : (s.withCommand c).HostWaits := ⟨nofun, nofun⟩

theorem step_withCommand (s : State) (c : Byte) : step (s.withCommand c) = exec (decodeCommand c) (s.withCommand c) :=
  stepRunsTheCommandInCmd _ _ (s.start_busy c) rfl (s.withCommand_waits c) (.inl rfl) rfl

theorem State.withToken_waits (s : State) (bytes : List Byte) : (s.withToken bytes).HostWaits := ⟨nofun, nofun⟩

/-- `withToken` gives the decoder room where `DSIZE` gave none. -/
theorem State.withToken_dsize_pos (s : State) (bytes : List Byte) : 0 < (s.withToken bytes).dsize.toNat := by
  by_cases h : s.dsize = 0#AW
  · have hdsize : (s.withToken bytes).dsize = 63#AW := if_pos h
    rw [hdsize]
    decide
  · have hdsize : (s.withToken bytes).dsize = s.dsize := if_neg h
    rw [hdsize]
    exact Nat.pos_of_ne_zero fun h0 => h (BitVec.eq_of_toNat_eq h0)

theorem State.withToken_active (s : State) (c v : Byte) : (s.withToken [c, v]).decoderActive :=
  ⟨s.withToken_dsize_pos [c, v], show 0 < 2 by decide⟩

theorem State.withToken_readByte_din (s : State) {bytes : List Byte} {a : Nat} (ha : a < bytes.length) :
    (s.withToken bytes).readByte .din a = bytes[a] := by
  have hdin : (s.withToken bytes).mem .din = s.din.putAll 0 bytes := rfl
  simp [State.readByte, hdin, Memory.byteAt_putAll, ha]

/-- The decoder reads back the token that was placed: it stands at `DIPOS`, and `DILEN` covers both its bytes. -/
theorem State.withToken_tokenBytes (s : State) (c v : Byte) : (s.withToken [c, v]).tokenBytes = [c, v] := by
  have hdipos : (s.withToken [c, v]).dipos.toNat = 0 := rfl
  have hdilen : (s.withToken [c, v]).dilen.toNat = 2 := rfl
  obtain ⟨hlast, -⟩ | ⟨-, hbytes⟩ := tokenBytes_cases (s.withToken_active c v)
  · rw [hdipos, hdilen] at hlast
    cases hlast
  · rw [hbytes, hdipos, s.withToken_readByte_din (bytes := [c, v]) (by simp),
      s.withToken_readByte_din (bytes := [c, v]) (by simp)]
    rfl

theorem step_withToken (s : State) {c v : Byte} {i : Instr} {rest : List Byte} (h : decodeToken [c, v] = .ok (i, rest)) :
    step (s.withToken [c, v]) = exec i (s.withToken [c, v]) :=
  stepRunsTheTokenAtDipos _ i rest (s.start_busy 0x02#8) rfl (s.withToken_active c v) (s.withToken_waits [c, v])
    (by rwa [s.withToken_tokenBytes])

theorem decodeTableWord_eq_some_iff {nbits w : Nat} {i : Instr} :
    decodeTableWord nbits w = some i ↔ ∃ rest, decode (tableSpace nbits w) (tableBytes nbits w) = .ok (i, rest) := by
  unfold decodeTableWord
  split
  · next hd => simp [hd]
  · next hd => simp [hd]

/-- Settles O9: a word is placed as a command in `CMD` or as a token of two bytes at the start of `DIN`, and is fetched from
there. -/
theorem placedWordIsRunNext : Obligations.PlacedWordIsRunNext := by
  intro s nbits w i hword
  obtain ⟨rest, hdecode⟩ := decodeTableWord_eq_some_iff.mp hword
  cases hspace : tableSpace nbits w with
  | token =>
    simp only [tableBytes, hspace] at hdecode
    simp only [State.withFetchWord, State.placeWord, tableBytes, hspace]
    exact step_withToken s hdecode
  | command =>
    simp only [tableBytes, hspace, decode, Except.ok.injEq, Prod.mk.injEq] at hdecode
    obtain ⟨rfl, -⟩ := hdecode
    simp only [State.withFetchWord, State.placeWord, tableBytes, hspace]
    exact step_withCommand s _

end Sys2Proof.Machine
